-- ==== Sys2Proof/Word.lean ====
section
/-! DEFINITION. The bit-vector types of the CHIP-8 core: what the spec treats as bits (00_scope.md R6). -/

namespace Sys2Proof

/-- A 4-bit field: a register index `x` or `y`, the row count `n`, `sp`, a key number (30_encoding.md R36, 10_state.md R14). -/
abbrev Nibble := BitVec 4

/-- A byte: a general register, a timer, a memory cell, the immediate `kk` (R6). -/
abbrev Byte := BitVec 8

/-- The 12-bit address immediate `nnn` (30_encoding.md R36). -/
abbrev Imm12 := BitVec 12

/-- A 16-bit word: an instruction, `I`, `pc`, a call-stack entry (R6). -/
abbrev Word := BitVec 16

end Sys2Proof
end

