-- ==== Sys2Proof/Syntax.lean ====
section
/-! DEFINITION. The operation type of 40_cycle.md R51: one constructor per row of spec/opcode_table.json, in decode
priority order, each carrying the fields of its format (30_encoding.md R36, R37). -/

namespace Sys2Proof

/-- The closed set of 36 operations (40_cycle.md R51; the names are the rule's variant names). -/
inductive Instr where
  /-- `CLS`, 00E0 -/
  | cls
  /-- `RET`, 00EE -/
  | ret
  /-- `SYS nnn`, 0nnn but 00E0 and 00EE -/
  | sys (nnn : Imm12)
  /-- `JP nnn`, 1nnn -/
  | jp (nnn : Imm12)
  /-- `CALL nnn`, 2nnn -/
  | call (nnn : Imm12)
  /-- `SE Vx, kk`, 3xkk -/
  | seImm (x : Nibble) (kk : Byte)
  /-- `SNE Vx, kk`, 4xkk -/
  | sneImm (x : Nibble) (kk : Byte)
  /-- `SE Vx, Vy`, 5xy0 -/
  | seReg (x y : Nibble)
  /-- `LD Vx, kk`, 6xkk -/
  | ldImm (x : Nibble) (kk : Byte)
  /-- `ADD Vx, kk`, 7xkk -/
  | addImm (x : Nibble) (kk : Byte)
  /-- `LD Vx, Vy`, 8xy0 -/
  | ldReg (x y : Nibble)
  /-- `OR Vx, Vy`, 8xy1 -/
  | orReg (x y : Nibble)
  /-- `AND Vx, Vy`, 8xy2 -/
  | andReg (x y : Nibble)
  /-- `XOR Vx, Vy`, 8xy3 -/
  | xorReg (x y : Nibble)
  /-- `ADD Vx, Vy`, 8xy4 -/
  | addReg (x y : Nibble)
  /-- `SUB Vx, Vy`, 8xy5 -/
  | subReg (x y : Nibble)
  /-- `SHR Vx {, Vy}`, 8xy6; the ignored `y` is kept -/
  | shr (x y : Nibble)
  /-- `SUBN Vx, Vy`, 8xy7 -/
  | subn (x y : Nibble)
  /-- `SHL Vx {, Vy}`, 8xyE; the ignored `y` is kept -/
  | shl (x y : Nibble)
  /-- `SNE Vx, Vy`, 9xy0 -/
  | sneReg (x y : Nibble)
  /-- `LD I, nnn`, Annn -/
  | ldI (nnn : Imm12)
  /-- `JP V0, nnn`, Bnnn -/
  | jpV0 (nnn : Imm12)
  /-- `RND Vx, kk`, Cxkk -/
  | rnd (x : Nibble) (kk : Byte)
  /-- `DRW Vx, Vy, n`, Dxyn -/
  | drw (x y n : Nibble)
  /-- `SKP Vx`, Ex9E -/
  | skp (x : Nibble)
  /-- `SKNP Vx`, ExA1 -/
  | sknp (x : Nibble)
  /-- `LD Vx, DT`, Fx07 -/
  | ldVxDt (x : Nibble)
  /-- `LD Vx, K`, Fx0A -/
  | ldVxK (x : Nibble)
  /-- `LD DT, Vx`, Fx15 -/
  | ldDtVx (x : Nibble)
  /-- `LD ST, Vx`, Fx18 -/
  | ldStVx (x : Nibble)
  /-- `ADD I, Vx`, Fx1E -/
  | addI (x : Nibble)
  /-- `LD F, Vx`, Fx29 -/
  | ldF (x : Nibble)
  /-- `LD B, Vx`, Fx33 -/
  | ldB (x : Nibble)
  /-- `LD [I], Vx`, Fx55 -/
  | ldMemVx (x : Nibble)
  /-- `LD Vx, [I]`, Fx65 -/
  | ldVxMem (x : Nibble)
  /-- `UNSUPPORTED w`, any word no other row matches -/
  | unsupported (w : Word)
  deriving DecidableEq, Repr

end Sys2Proof
end

