-- ==== Sys2Proof/WellFormed.lean ====
section
/-! DEFINITION. Which terms of Instr are an instruction of the hardware: the two constructors whose field does not range
over all its values are `sys` (30_encoding.md R39, R40 row 3) and `unsupported` (R41). -/

namespace Sys2Proof

/-- The words R41 lists as unassigned under `UNSUPPORTED` (every row of its table but `op = 0`, which is `SYS`). -/
def reservedWord (w : Word) : Bool :=
  let op := w.extractLsb' 12 4
  let n  := w.extractLsb' 0 4
  let kk := w.extractLsb' 0 8
  (op = 0x5#4 && n ≠ 0x0#4) ||
  (op = 0x8#4 && [0x8#4, 0x9#4, 0xA#4, 0xB#4, 0xC#4, 0xD#4, 0xF#4].contains n) ||
  (op = 0x9#4 && n ≠ 0x0#4) ||
  (op = 0xE#4 && !([0x9E#8, 0xA1#8].contains kk)) ||
  (op = 0xF#4 && !([0x07#8, 0x0A#8, 0x15#8, 0x18#8, 0x1E#8, 0x29#8, 0x33#8, 0x55#8, 0x65#8].contains kk))

/-- A term the decoder can produce: `sys` never carries the field of `CLS` or `RET`, `unsupported` only a reserved word. -/
def Instr.wellFormed : Instr → Bool
  | .cls => true
  | .ret => true
  | .sys nnn => nnn ≠ 0x0E0#12 && nnn ≠ 0x0EE#12
  | .jp _ => true
  | .call _ => true
  | .seImm _ _ => true
  | .sneImm _ _ => true
  | .seReg _ _ => true
  | .ldImm _ _ => true
  | .addImm _ _ => true
  | .ldReg _ _ => true
  | .orReg _ _ => true
  | .andReg _ _ => true
  | .xorReg _ _ => true
  | .addReg _ _ => true
  | .subReg _ _ => true
  | .shr _ _ => true
  | .subn _ _ => true
  | .shl _ _ => true
  | .sneReg _ _ => true
  | .ldI _ => true
  | .jpV0 _ => true
  | .rnd _ _ => true
  | .drw _ _ _ => true
  | .skp _ => true
  | .sknp _ => true
  | .ldVxDt _ => true
  | .ldVxK _ => true
  | .ldDtVx _ => true
  | .ldStVx _ => true
  | .addI _ => true
  | .ldF _ => true
  | .ldB _ => true
  | .ldMemVx _ => true
  | .ldVxMem _ => true
  | .unsupported w => reservedWord w

end Sys2Proof
end

