-- ==== Sys2Proof/Decode.lean ====
section
/-! DEFINITION. Field extraction (30_encoding.md R36), the decoder (R39, R40 read as the tree on `op`), the opcode table
as data, and the encoder. -/

namespace Sys2Proof

/-! ## Fields (R36) -/

/-- `op = w[15:12]`. -/
def opField (w : Word) : Nibble := w.extractLsb' 12 4
/-- `x = w[11:8]`. -/
def xField (w : Word) : Nibble := w.extractLsb' 8 4
/-- `y = w[7:4]`. -/
def yField (w : Word) : Nibble := w.extractLsb' 4 4
/-- `n = w[3:0]`. -/
def nField (w : Word) : Nibble := w.extractLsb' 0 4
/-- `kk = w[7:0]`. -/
def kkField (w : Word) : Byte := w.extractLsb' 0 8
/-- `nnn = w[11:0]`. -/
def nnnField (w : Word) : Imm12 := w.extractLsb' 0 12

/-- The word of two bytes, the byte at the lower address in bits 15 to 8 (20_memory.md R26). -/
def wordOfBytes (hi lo : Byte) : Word := hi ++ lo
/-- The byte a word keeps at the lower address (R26, R36). -/
def highByte (w : Word) : Byte := w.extractLsb' 8 8
/-- The byte a word keeps at the higher address (R26, R36). -/
def lowByte (w : Word) : Byte := w.extractLsb' 0 8

/-! ## Decode (R39, and the tree of R40) -/

/-- `op = 0`: `CLS`, `RET`, else `SYS`. -/
def decodeGroup0 (w : Word) : Instr :=
  if w = 0x00E0#16 then .cls
  else if w = 0x00EE#16 then .ret
  else .sys (nnnField w)

/-- `op = 8`: the register-to-register group, selected by `n`. -/
def decodeGroup8 (w : Word) : Instr :=
  let x := xField w
  let y := yField w
  let n := nField w
  if n = 0x0#4 then .ldReg x y
  else if n = 0x1#4 then .orReg x y
  else if n = 0x2#4 then .andReg x y
  else if n = 0x3#4 then .xorReg x y
  else if n = 0x4#4 then .addReg x y
  else if n = 0x5#4 then .subReg x y
  else if n = 0x6#4 then .shr x y
  else if n = 0x7#4 then .subn x y
  else if n = 0xE#4 then .shl x y
  else .unsupported w

/-- `op = E`: the key skips, selected by `kk`. -/
def decodeGroupE (w : Word) : Instr :=
  if kkField w = 0x9E#8 then .skp (xField w)
  else if kkField w = 0xA1#8 then .sknp (xField w)
  else .unsupported w

/-- `op = F`: timers, keypad, index and memory, selected by `kk`. -/
def decodeGroupF (w : Word) : Instr :=
  let x := xField w
  let kk := kkField w
  if kk = 0x07#8 then .ldVxDt x
  else if kk = 0x0A#8 then .ldVxK x
  else if kk = 0x15#8 then .ldDtVx x
  else if kk = 0x18#8 then .ldStVx x
  else if kk = 0x1E#8 then .addI x
  else if kk = 0x29#8 then .ldF x
  else if kk = 0x33#8 then .ldB x
  else if kk = 0x55#8 then .ldMemVx x
  else if kk = 0x65#8 then .ldVxMem x
  else .unsupported w

/-- `Decode(w)`: total, a function of the word alone (R39, 40_cycle.md R46). -/
def decodeWord (w : Word) : Instr :=
  let op := opField w
  if op = 0x0#4 then decodeGroup0 w
  else if op = 0x1#4 then .jp (nnnField w)
  else if op = 0x2#4 then .call (nnnField w)
  else if op = 0x3#4 then .seImm (xField w) (kkField w)
  else if op = 0x4#4 then .sneImm (xField w) (kkField w)
  else if op = 0x5#4 then (if nField w = 0x0#4 then .seReg (xField w) (yField w) else .unsupported w)
  else if op = 0x6#4 then .ldImm (xField w) (kkField w)
  else if op = 0x7#4 then .addImm (xField w) (kkField w)
  else if op = 0x8#4 then decodeGroup8 w
  else if op = 0x9#4 then (if nField w = 0x0#4 then .sneReg (xField w) (yField w) else .unsupported w)
  else if op = 0xA#4 then .ldI (nnnField w)
  else if op = 0xB#4 then .jpV0 (nnnField w)
  else if op = 0xC#4 then .rnd (xField w) (kkField w)
  else if op = 0xD#4 then .drw (xField w) (yField w) (nField w)
  else if op = 0xE#4 then decodeGroupE w
  else decodeGroupF w

/-- Why bytes do not decode: no word is refused (R39, R41), only a piece of memory shorter than an instruction. -/
inductive DecodeError where
  /-- Fewer than the two bytes every instruction has (R36, R44). -/
  | truncated
  deriving DecidableEq, Repr

/-- The instruction at the head of a list of bytes, and the bytes after it (R26, R36: high byte first, two bytes). -/
def decode : List Byte → Except DecodeError (Instr × List Byte)
  | hi :: lo :: rest => .ok (decodeWord (wordOfBytes hi lo), rest)
  | [_] => .error .truncated
  | [] => .error .truncated

/-! ## The opcode table as data (R40, spec/opcode_table.json) -/

/-- One row of R40: a word `w` is of the row when `w & mask = pattern`. -/
structure OpcodeRow where
  mask     : Word
  pattern  : Word
  mnemonic : String
  build    : Word → Instr

/-- Rows 1 to 10 of 30_encoding.md R40. -/
def opcodeRowsControl : List OpcodeRow := [
  { mask := 0xFFFF#16, pattern := 0x00E0#16, mnemonic := "CLS", build := fun _ => .cls },
  { mask := 0xFFFF#16, pattern := 0x00EE#16, mnemonic := "RET", build := fun _ => .ret },
  { mask := 0xF000#16, pattern := 0x0000#16, mnemonic := "SYS_nnn", build := fun w => .sys (nnnField w) },
  { mask := 0xF000#16, pattern := 0x1000#16, mnemonic := "JP_nnn", build := fun w => .jp (nnnField w) },
  { mask := 0xF000#16, pattern := 0x2000#16, mnemonic := "CALL_nnn", build := fun w => .call (nnnField w) },
  { mask := 0xF000#16, pattern := 0x3000#16, mnemonic := "SE_Vx__kk", build := fun w => .seImm (xField w) (kkField w) },
  { mask := 0xF000#16, pattern := 0x4000#16, mnemonic := "SNE_Vx__kk", build := fun w => .sneImm (xField w) (kkField w) },
  { mask := 0xF00F#16, pattern := 0x5000#16, mnemonic := "SE_Vx__Vy", build := fun w => .seReg (xField w) (yField w) },
  { mask := 0xF000#16, pattern := 0x6000#16, mnemonic := "LD_Vx__kk", build := fun w => .ldImm (xField w) (kkField w) },
  { mask := 0xF000#16, pattern := 0x7000#16, mnemonic := "ADD_Vx__kk", build := fun w => .addImm (xField w) (kkField w) } ]

/-- Rows 11 to 19 of R40. -/
def opcodeRowsAlu : List OpcodeRow := [
  { mask := 0xF00F#16, pattern := 0x8000#16, mnemonic := "LD_Vx__Vy", build := fun w => .ldReg (xField w) (yField w) },
  { mask := 0xF00F#16, pattern := 0x8001#16, mnemonic := "OR_Vx__Vy", build := fun w => .orReg (xField w) (yField w) },
  { mask := 0xF00F#16, pattern := 0x8002#16, mnemonic := "AND_Vx__Vy", build := fun w => .andReg (xField w) (yField w) },
  { mask := 0xF00F#16, pattern := 0x8003#16, mnemonic := "XOR_Vx__Vy", build := fun w => .xorReg (xField w) (yField w) },
  { mask := 0xF00F#16, pattern := 0x8004#16, mnemonic := "ADD_Vx__Vy", build := fun w => .addReg (xField w) (yField w) },
  { mask := 0xF00F#16, pattern := 0x8005#16, mnemonic := "SUB_Vx__Vy", build := fun w => .subReg (xField w) (yField w) },
  { mask := 0xF00F#16, pattern := 0x8006#16, mnemonic := "SHR_Vx", build := fun w => .shr (xField w) (yField w) },
  { mask := 0xF00F#16, pattern := 0x8007#16, mnemonic := "SUBN_Vx__Vy", build := fun w => .subn (xField w) (yField w) },
  { mask := 0xF00F#16, pattern := 0x800E#16, mnemonic := "SHL_Vx", build := fun w => .shl (xField w) (yField w) } ]

/-- Rows 20 to 26 of R40. -/
def opcodeRowsMiddle : List OpcodeRow := [
  { mask := 0xF00F#16, pattern := 0x9000#16, mnemonic := "SNE_Vx__Vy", build := fun w => .sneReg (xField w) (yField w) },
  { mask := 0xF000#16, pattern := 0xA000#16, mnemonic := "LD_I__nnn", build := fun w => .ldI (nnnField w) },
  { mask := 0xF000#16, pattern := 0xB000#16, mnemonic := "JP_V0__nnn", build := fun w => .jpV0 (nnnField w) },
  { mask := 0xF000#16, pattern := 0xC000#16, mnemonic := "RND_Vx__kk", build := fun w => .rnd (xField w) (kkField w) },
  { mask := 0xF000#16, pattern := 0xD000#16, mnemonic := "DRW_Vx__Vy__n", build := fun w => .drw (xField w) (yField w) (nField w) },
  { mask := 0xF0FF#16, pattern := 0xE09E#16, mnemonic := "SKP_Vx", build := fun w => .skp (xField w) },
  { mask := 0xF0FF#16, pattern := 0xE0A1#16, mnemonic := "SKNP_Vx", build := fun w => .sknp (xField w) } ]

/-- Rows 27 to 36 of R40; the last matches every word. -/
def opcodeRowsX : List OpcodeRow := [
  { mask := 0xF0FF#16, pattern := 0xF007#16, mnemonic := "LD_Vx__DT", build := fun w => .ldVxDt (xField w) },
  { mask := 0xF0FF#16, pattern := 0xF00A#16, mnemonic := "LD_Vx__K", build := fun w => .ldVxK (xField w) },
  { mask := 0xF0FF#16, pattern := 0xF015#16, mnemonic := "LD_DT__Vx", build := fun w => .ldDtVx (xField w) },
  { mask := 0xF0FF#16, pattern := 0xF018#16, mnemonic := "LD_ST__Vx", build := fun w => .ldStVx (xField w) },
  { mask := 0xF0FF#16, pattern := 0xF01E#16, mnemonic := "ADD_I__Vx", build := fun w => .addI (xField w) },
  { mask := 0xF0FF#16, pattern := 0xF029#16, mnemonic := "LD_F__Vx", build := fun w => .ldF (xField w) },
  { mask := 0xF0FF#16, pattern := 0xF033#16, mnemonic := "LD_B__Vx", build := fun w => .ldB (xField w) },
  { mask := 0xF0FF#16, pattern := 0xF055#16, mnemonic := "LD__I___Vx", build := fun w => .ldMemVx (xField w) },
  { mask := 0xF0FF#16, pattern := 0xF065#16, mnemonic := "LD_Vx___I", build := fun w => .ldVxMem (xField w) },
  { mask := 0x0000#16, pattern := 0x0000#16, mnemonic := "UNSUPPORTED_w", build := fun w => .unsupported w } ]

/-- The 36 rows of R40 in decode priority order. -/
def opcodeTable : List OpcodeRow := opcodeRowsControl ++ (opcodeRowsAlu ++ (opcodeRowsMiddle ++ opcodeRowsX))

/-- `(w & mask) == match` (R39). -/
def OpcodeRow.selects (r : OpcodeRow) (w : Word) : Bool := w &&& r.mask = r.pattern

/-- The first row that selects the word (R39). -/
def firstRow (w : Word) : Option OpcodeRow := opcodeTable.find? (fun r => r.selects w)

/-! ## Encode -/

/-- Formats of R37, high field first. -/
def formatA (op : Nibble) (nnn : Imm12) : Word := op ++ nnn
/-- Format XK, and X with a fixed `kk` (R37). -/
def formatXK (op x : Nibble) (kk : Byte) : Word := op ++ x ++ kk
/-- Format XYN, and XY with a fixed `n` (R37). -/
def formatXYN (op x y n : Nibble) : Word := op ++ x ++ y ++ n

/-- The word of an instruction (R40; R51: "`Sys` additionally needs the whole word ... the word is `zext_16(nnn)`"). -/
def encode : Instr → Word
  | .cls => 0x00E0#16
  | .ret => 0x00EE#16
  | .sys nnn => formatA 0x0#4 nnn
  | .jp nnn => formatA 0x1#4 nnn
  | .call nnn => formatA 0x2#4 nnn
  | .seImm x kk => formatXK 0x3#4 x kk
  | .sneImm x kk => formatXK 0x4#4 x kk
  | .seReg x y => formatXYN 0x5#4 x y 0x0#4
  | .ldImm x kk => formatXK 0x6#4 x kk
  | .addImm x kk => formatXK 0x7#4 x kk
  | .ldReg x y => formatXYN 0x8#4 x y 0x0#4
  | .orReg x y => formatXYN 0x8#4 x y 0x1#4
  | .andReg x y => formatXYN 0x8#4 x y 0x2#4
  | .xorReg x y => formatXYN 0x8#4 x y 0x3#4
  | .addReg x y => formatXYN 0x8#4 x y 0x4#4
  | .subReg x y => formatXYN 0x8#4 x y 0x5#4
  | .shr x y => formatXYN 0x8#4 x y 0x6#4
  | .subn x y => formatXYN 0x8#4 x y 0x7#4
  | .shl x y => formatXYN 0x8#4 x y 0xE#4
  | .sneReg x y => formatXYN 0x9#4 x y 0x0#4
  | .ldI nnn => formatA 0xA#4 nnn
  | .jpV0 nnn => formatA 0xB#4 nnn
  | .rnd x kk => formatXK 0xC#4 x kk
  | .drw x y n => formatXYN 0xD#4 x y n
  | .skp x => formatXK 0xE#4 x 0x9E#8
  | .sknp x => formatXK 0xE#4 x 0xA1#8
  | .ldVxDt x => formatXK 0xF#4 x 0x07#8
  | .ldVxK x => formatXK 0xF#4 x 0x0A#8
  | .ldDtVx x => formatXK 0xF#4 x 0x15#8
  | .ldStVx x => formatXK 0xF#4 x 0x18#8
  | .addI x => formatXK 0xF#4 x 0x1E#8
  | .ldF x => formatXK 0xF#4 x 0x29#8
  | .ldB x => formatXK 0xF#4 x 0x33#8
  | .ldMemVx x => formatXK 0xF#4 x 0x55#8
  | .ldVxMem x => formatXK 0xF#4 x 0x65#8
  | .unsupported w => w

/-- The two bytes of an instruction in memory, lower address first (R26). -/
def encodeBytes (i : Instr) : List Byte := [highByte (encode i), lowByte (encode i)]

/-- The first word of an instruction given as table bits: bits above `nbits` are 0, the first word is bits 15 to 0. -/
def tableWord (nbits w : Nat) : Word := BitVec.ofNat 16 (w % 2 ^ nbits)

/-- The instruction the decoder reads from table bits, laid out in memory order. -/
def decodeTableWord (nbits w : Nat) : Option Instr :=
  match decode [highByte (tableWord nbits w), lowByte (tableWord nbits w)] with
  | .ok (i, _) => some i
  | .error _ => none

end Sys2Proof
end

