-- ==== Sys2Proof/Config.lean ====
section
/-! DEFINITION. What an implementation fixes (00_scope.md R3) and the free values the spec leaves open. -/

namespace Sys2Proof

/-- The OPEN parameters of 00_scope.md R3: "An OPEN parameter is an argument of the model". They are constants of a
run; State carries them so that every statement holds for every value (log 3). -/
structure Params where
  /-- `MEM_LEN`, the length of the addressable memory in bytes. -/
  memLen   : Nat
  /-- `FONT_BASE`, the address of the sixteen 5-byte digit glyphs. -/
  fontBase : Nat
  /-- `ENTRY_PC`, where a program is conventionally entered (used by the boot sequence only). -/
  entryPc  : Nat
  deriving DecidableEq, Repr

/-- The defaults of R3: 4096 bytes, glyphs at 0x050, entry at 0x200. -/
def Params.standard : Params := { memLen := 4096, fontBase := 0x050, entryPc := 0x200 }

/-- The constraints on the open parameters (R3 and the table of open parameters in 92_eei_decisions.md). -/
abbrev Params.Wf (p : Params) : Prop :=
  2 ≤ p.memLen ∧ p.memLen ≤ 65536 ∧ p.fontBase + 79 < p.memLen ∧ p.entryPc + 1 < p.memLen

/-! ## Events -/

/-- The events that change state (00_scope.md R5). -/
inductive Machine.Event where
  /-- One fetch-decode-execute cycle (40_cycle.md R48). -/
  | step
  /-- The timer countdown (R105). -/
  | tick
  /-- Reset of the block (70_reset_and_hazards.md R111). -/
  | reset
  /-- A key flag is written (R108). -/
  | keyWrite (k : Nibble) (pressed : Bool)
  /-- The owner of the memory writes a byte (20_memory.md R31). -/
  | hostMemWrite (addr : Nat) (b : Byte)
  /-- The owner loads the program counter (R114). -/
  | hostLoadPC (v : Word)
  deriving DecidableEq, Repr, Inhabited

/-! ## Free values -/

namespace Config

/-- The byte the `rnd` port gives at its n-th read: a FREE VALUE (42_alu.md R75, 92_eei_decisions.md D22; log 5). -/
opaque rndByte : Nat → Byte

/-- What a screen other than the reference screen answers to its n-th draw request: `none` when it refuses, else whether
it reports a collision. A FREE VALUE (60_exceptions.md R106, 92_eei_decisions.md D25, D37; log 7). -/
opaque screenAnswer : Nat → Option Bool

/-- The n-th event a driving loop of free events issues: a FREE VALUE (00_scope.md R5, 92_eei_decisions.md D30; log 2). -/
opaque freeEvent : Nat → Machine.Event

end Config
end Sys2Proof
end

