-- ==== Sys2Proof/Machine/State.lean ====
section
/-! DEFINITION. The state of the machine as plain data: CpuState (10_state.md R9), the addressable memory, the screen and
the parameters its rules read (R21), and the driving loop that issues the events (00_scope.md R5). -/

namespace Sys2Proof.Machine

/-! ## The block -/

/-- `CpuState`, "the sole entity" (R9): exactly these eight fields. -/
structure CpuState where
  /-- `V[0..15]` (R10); `V[15]` is the flag `VF` (R11). -/
  v         : Vector Byte 16
  /-- The index register `I` (R12). -/
  i         : Word
  /-- The program counter (R13). -/
  pc        : Word
  /-- The stack pointer, the number of return addresses held (R14). -/
  sp        : Nibble
  /-- The call stack; entry 0 is reserved (R15). -/
  callStack : Vector Word 16
  /-- The delay timer `DT` (R16). -/
  dt        : Byte
  /-- The sound timer `ST` (R16). -/
  st        : Byte
  /-- The key flags, true = pressed (R17). -/
  keypad    : Vector Bool 16
  deriving DecidableEq, Repr

/-- Every field at the value R20 tabulates. -/
def CpuState.zero : CpuState :=
  { v := Vector.replicate 16 0x00#8, i := 0x0000#16, pc := 0x0000#16, sp := 0x0#4,
    callStack := Vector.replicate 16 0x0000#16, dt := 0x00#8, st := 0x00#8, keypad := Vector.replicate 16 false }

/-! ## Errors and answers (60_exceptions.md R93) -/

/-- The closed list of errors of R93, with their payloads. -/
inductive Error where
  /-- Raised by `CALL` with a full stack (R94). -/
  | stackOverflow (length : Nat)
  /-- Raised by `RET` with an empty stack (R95). -/
  | stackUnderflow
  /-- Raised by fetch, the jumps and the memory instructions (R96). -/
  | addressOutOfBounds (address limit : Nat)
  /-- Raised by `SYS`, `UNSUPPORTED`, `SKP`, `SKNP`, `LD F` and `DRW` (R97). -/
  | unsupportedOperation (word : Word)
  deriving DecidableEq, Repr

/-- The answer of the `step` port: `Ok` or exactly one error (R93, 40_cycle.md R48). -/
inductive Answer where
  | ok
  | error (e : Error)
  deriving DecidableEq, Repr

/-! ## Memory and screen -/

/-- The addressable memory (20_memory.md R22) as (address, byte) pairs in the canonical form `Memory.wf`. -/
abbrev Memory := List Host.Cell

/-- The pixels of the reference screen (R107): 32 rows, top first, of 64 columns, left first; true = 1 (on). -/
abbrev Pixels := Vector (Vector Bool 64) 32

/-- The screen the block talks to (R106, 92_eei_decisions.md D25). -/
inductive Screen where
  /-- The reference screen of R107. -/
  | reference (pix : Pixels)
  /-- A screen whose behaviour the spec leaves open: its answers are free values; `requests` counts the draw requests it
  has had, which is the model's own field (log 7). -/
  | external (requests : Nat)
  deriving DecidableEq, Repr

/-! ## The driving loop -/

/-- What the driving loop issues once its schedule is used up (R5, 92_eei_decisions.md D30; log 2). -/
inductive Continuation where
  /-- These events, over and over. -/
  | again (first : Event) (more : List Event)
  /-- Events the model leaves free, for ever: any of the six, in any order; `issued` counts those already issued, which is
  the model's own field. -/
  | free (issued : Nat)
  deriving DecidableEq, Repr

/-- `Step` for ever: a run in which no other event comes any more. -/
abbrev Continuation.steps : Continuation := .again .step []

/-- What the driving loop does after an error: "recovery policy (halt emulation, reset, skip instruction) is entirely the
driving loop's decision" (R102; log 1). -/
inductive Policy where
  /-- Halt emulation: the run ends (R120 (a)). -/
  | halt
  /-- The next event is a Reset. -/
  | reset
  /-- Go on with the next event; the failing instruction "has in effect been skipped" (R102). -/
  | skip
  deriving DecidableEq, Repr

/-- The driving loop as plain data. It is the MODEL's own, not state of the block (R18; log 1, log 2). -/
structure Driver where
  /-- The events it issues next, first first. -/
  schedule : List Event
  /-- What it issues when none of them is left. -/
  afterwards : Continuation
  /-- Its recovery policy. -/
  policy   : Policy
  /-- The answer it got from the last `Step`. -/
  answer   : Answer
  deriving DecidableEq, Repr

/-! ## The machine -/

/-- The block, and what its rules read and write outside it (R9, R21). -/
structure State where
  /-- The block (R9). -/
  cpu      : CpuState
  /-- The addressable memory (R21 (a), R22). -/
  mem      : Memory
  /-- The external screen (R21 (b)). -/
  screen   : Screen
  /-- The parameters, constants of a run (R21 (c), R3; log 3). -/
  params   : Params
  /-- How many bytes the `rnd` port has given: the model's own counter (R21 (d); log 5). -/
  rndReads : Nat
  /-- The driving loop. -/
  driver   : Driver
  deriving DecidableEq, Repr

/-- Right after reset at power-on (R20, R112): CpuState all zero; memory with nothing listed (log 4), the reference
screen all off (log 6), the default parameters (log 3), a driving loop whose events are free (log 1, log 2). -/
def State.reset : State :=
  { cpu := CpuState.zero, mem := [], screen := .reference (Vector.replicate 32 (Vector.replicate 64 false)),
    params := Params.standard, rndReads := 0,
    driver := { schedule := [], afterwards := .free 0, policy := .skip, answer := .ok } }

/-! ## How a step can stop -/

/-- Faults. No instruction's meaning faults: an error is an answer (R101), after which the block goes on (R48). -/
inductive Fault where
  /-- Raised by the event `step` when it answered the error and the driving loop's policy is `halt`: the run has ended
  (R102, R120 (a), 92_eei_decisions.md D8). Safe: it stops where the block itself could go on. -/
  | halted (e : Error)
  deriving DecidableEq, Repr

/-- Refusals. No instruction's meaning refuses. -/
inductive Refusal where
  /-- An instruction whose arm of `exec` has no meaning yet: no arm raises it. Safe. -/
  | notModelled (mnemonic : String)
  /-- Raised by the event `hostMemWrite` at an address at or above MEM_LEN, for which R24 defines no write (log 12). Safe. -/
  | hostWriteOutside (address limit : Nat)
  deriving DecidableEq, Repr

end Sys2Proof.Machine
end

