-- ==== Sys2Proof/Machine/Ops.lean ====
section
/-! DEFINITION. The named operations over memory, registers, stack, pc and timers, and how an error is delivered. -/

namespace Sys2Proof.Machine

/-- What every event and every meaning answers. -/
abbrev Result := Host.Outcome State Fault Refusal

/-! ## Memory (20_memory.md R22 to R24) -/

/-- What an unlisted address reads as (DESIGN CHOICE, log 4). -/
def Memory.unlisted : Byte := 0x00#8

/-- The canonical form: addresses strictly rising, and no entry equal to what an unlisted address reads as. -/
abbrev Memory.wf (m : Memory) : Prop :=
  m.Pairwise (fun c d => c.1 < d.1) ∧ ∀ c ∈ m, c.2 ≠ Memory.unlisted

/-- The byte at an address (R23). -/
def Memory.read : Memory → Nat → Byte
  | [], _ => Memory.unlisted
  | c :: rest, a => if c.1 = a then c.2 else Memory.read rest a

/-- Put a cell before the first one with a higher address. -/
def Memory.insert (a : Nat) (b : Byte) : Memory → Memory
  | [] => [(a, b)]
  | c :: rest => if a < c.1 then (a, b) :: c :: rest else c :: Memory.insert a b rest

/-- Set the byte at an address (R24), keeping the canonical form. -/
def Memory.write (m : Memory) (a : Nat) (b : Byte) : Memory :=
  let others := m.filter (fun c => c.1 ≠ a)
  if b = Memory.unlisted then others else Memory.insert a b others

/-- `n` bytes from `a` upward, lowest address first (R23, R27). -/
def Memory.readBytes (m : Memory) (a : Nat) : Nat → List Byte
  | 0 => []
  | n + 1 => Memory.read m a :: Memory.readBytes m (a + 1) n

/-- Bytes written from `a` upward, in ascending address order (R24, R27). -/
def Memory.writeBytes (m : Memory) (a : Nat) : List Byte → Memory
  | [] => m
  | b :: rest => Memory.writeBytes (Memory.write m a b) (a + 1) rest

/-- `MemRead(addr, 1)` (R23). -/
def State.readByte (s : State) (a : Nat) : Byte := Memory.read s.mem a

/-- `MemRead` of several bytes, one request each, ascending (R23). -/
def State.readBytes (s : State) (a n : Nat) : List Byte := Memory.readBytes s.mem a n

/-- `MemWrite(addr, 1, b)` (R24). -/
def State.writeByte (s : State) (a : Nat) (b : Byte) : State := { s with mem := Memory.write s.mem a b }

/-- `MemWrite` of several bytes, one request each, ascending (R24). -/
def State.writeBytes (s : State) (a : Nat) (bs : List Byte) : State := { s with mem := Memory.writeBytes s.mem a bs }

/-! ## Registers (10_state.md R10 to R17) -/

/-- Read `V[x]` (R10). -/
def State.getV (s : State) (x : Nibble) : Byte := s.cpu.v[x.toNat]'(x.isLt)

/-- Write `V[x]`; no register is hardwired (R10). -/
def State.setV (s : State) (x : Nibble) (b : Byte) : State :=
  { s with cpu := { s.cpu with v := s.cpu.v.set x.toNat b x.isLt } }

/-- Write `I`, all 16 bits (R12). -/
def State.setI (s : State) (w : Word) : State := { s with cpu := { s.cpu with i := w } }

/-- `pc <- target` (R13). -/
def State.setPc (s : State) (w : Word) : State := { s with cpu := { s.cpu with pc := w } }

/-- Write `sp` (R14). -/
def State.setSp (s : State) (n : Nibble) : State := { s with cpu := { s.cpu with sp := n } }

/-- Read entry `j` of the call stack (R15). -/
def State.stackEntry (s : State) (j : Nibble) : Word := s.cpu.callStack[j.toNat]'(j.isLt)

/-- Write entry `j` of the call stack (R15). -/
def State.setStackEntry (s : State) (j : Nibble) (w : Word) : State :=
  { s with cpu := { s.cpu with callStack := s.cpu.callStack.set j.toNat w j.isLt } }

/-- Write `DT` (R16). -/
def State.setDt (s : State) (b : Byte) : State := { s with cpu := { s.cpu with dt := b } }

/-- Write `ST` (R16). -/
def State.setSt (s : State) (b : Byte) : State := { s with cpu := { s.cpu with st := b } }

/-- Read key flag `k` (R17). -/
def State.key (s : State) (k : Nibble) : Bool := s.cpu.keypad[k.toNat]'(k.isLt)

/-- Write key flag `k` (R17). -/
def State.setKey (s : State) (k : Nibble) (pressed : Bool) : State :=
  { s with cpu := { s.cpu with keypad := s.cpu.keypad.set k.toNat pressed k.isLt } }

/-- Replace the screen (60_exceptions.md R106). -/
def State.setScreen (s : State) (sc : Screen) : State := { s with screen := sc }

/-- One more byte has been taken from the `rnd` port (42_alu.md R75; log 5). -/
def State.countRnd (s : State) : State := { s with rndReads := s.rndReads + 1 }

/-- Record the answer of the `step` port (60_exceptions.md R101; log 1). -/
def State.setAnswer (s : State) (a : Answer) : State := { s with driver := { s.driver with answer := a } }

/-- Replace the driving loop's schedule (00_scope.md R5; log 2). -/
def State.setSchedule (s : State) (es : List Event) : State := { s with driver := { s.driver with schedule := es } }

/-- Replace what the driving loop issues after its schedule (00_scope.md R5; log 2). -/
def State.setAfterwards (s : State) (c : Continuation) : State :=
  { s with driver := { s.driver with afterwards := c } }

/-- `V[j] <- b0`, `V[j+1] <- b1`, ... in ascending order (43_index_memory.md R82); used with `j` and the length of the list
adding up to at most 16. -/
def State.setRegsFrom (s : State) (j : Nat) : List Byte → State
  | [] => s
  | b :: rest => State.setRegsFrom (s.setV (BitVec.ofNat 4 j) b) (j + 1) rest

/-- `V[0]` to `V[x]`, `x + 1` bytes, ascending (43_index_memory.md R81). -/
def State.regsUpTo (s : State) (x : Nibble) : List Byte :=
  (List.range (x.toNat + 1)).map (fun j => s.getV (BitVec.ofNat 4 j))

/-! ## Errors (60_exceptions.md R101) -/

/-- The numeric codes of R93 (92_eei_decisions.md D7). -/
def Answer.code : Answer → Nat
  | .ok => 0
  | .error (.stackOverflow _) => 1
  | .error .stackUnderflow => 2
  | .error (.addressOutOfBounds _ _) => 3
  | .error (.unsupportedOperation _) => 4

/-- `raise E(info)`: the error is the answer of the step; nothing else is written (00_scope.md R7, 40_cycle.md R47, R101).
Run in the execute stage `s` has `pc` already advanced, so the state after is the one R94 to R97 give. -/
def raise (e : Error) (s : State) : Result := .next (s.setAnswer (.error e))

/-- What the driving loop does with the state a step left (R102). There is no return-from-trap instruction: this is where
a run goes on, or ends, after an error. -/
def driverReacts (t : State) : Result :=
  match t.driver.answer with
  | .ok => .next t
  | .error e =>
    match t.driver.policy with
    | .skip => .next t
    | .reset => .next (t.setSchedule (.reset :: t.driver.schedule))
    | .halt => .fault (.halted e)

/-- The bounds discipline of 20_memory.md R25, with `a` the highest address needed, and the target check of
41_control_flow.md R52: an error answer, or `body`. -/
def withinMemory (a : Nat) (s : State) (body : Result) : Result :=
  if s.params.memLen ≤ a then raise (.addressOutOfBounds a s.params.memLen) s else body

/-! ## Fetch (40_cycle.md R45) -/

/-- The big-endian word at an address (20_memory.md R26). -/
def State.wordAt (s : State) (a : Nat) : Word := wordOfBytes (s.readByte a) (s.readByte (a + 1))

/-- The incrementer: `(pc + 2) mod 2^16` (R13). -/
def State.advancePc (s : State) : State := s.setPc (s.cpu.pc + 2)

/-- `Fetch()`: the word at `pc` and the state with `pc` advanced, or the error, with nothing changed (R45). -/
def fetch (s : State) : Except Error (Word × State) :=
  if s.params.memLen ≤ s.cpu.pc.toNat + 1 then
    .error (.addressOutOfBounds (s.cpu.pc.toNat + 1) s.params.memLen)
  else
    .ok (s.wordAt s.cpu.pc.toNat, s.advancePc)

/-! ## The stack primitives (40_cycle.md R49, R50) -/

/-- `Push(v)` (R49). -/
def push (v : Word) (s : State) : Except Error State :=
  if s.cpu.sp = 0xF#4 then .error (.stackOverflow s.cpu.sp.toNat)
  else .ok ((s.setSp (s.cpu.sp + 1)).setStackEntry (s.cpu.sp + 1) v)

/-- `Pop()` (R50). -/
def pop (s : State) : Except Error (Word × State) :=
  if s.cpu.sp = 0x0#4 then .error .stackUnderflow
  else .ok (s.stackEntry s.cpu.sp, s.setSp (s.cpu.sp - 1))

end Sys2Proof.Machine
end

