-- ==== Sys2Proof/Machine/Flags.lean ====
section
/-! DEFINITION. The flag computations (42_alu.md R63 (b)) and the order of writes, result first and flag last (R63 (c)). -/

namespace Sys2Proof.Machine

/-- Carry: the exact sum exceeds 255. -/
def carryFlag (a b : Byte) : Bool := 255 < a.toNat + b.toNat

/-- The subtract flag of `a - b`: 1 = no borrow, minuend not below subtrahend. -/
def noBorrowFlag (a b : Byte) : Bool := b.toNat ≤ a.toNat

/-- The bit a right shift by one shifts out. -/
def shiftedOutRight (a : Byte) : Bool := a.getLsbD 0

/-- The bit a left shift by one shifts out. -/
def shiftedOutLeft (a : Byte) : Bool := a.getLsbD 7

/-- A flag as the byte `VF` holds, 0x00 or 0x01 (10_state.md R11). -/
def flagByte (c : Bool) : Byte := if c then 0x01#8 else 0x00#8

/-- `V[15] <- flag` (R11). -/
def State.setFlag (s : State) (c : Bool) : State := s.setV 0xF#4 (flagByte c)

/-- The result to `V[x]`, then the flag to `V[15]`: with `x = 15` the flag survives (R63 (c)). -/
def State.setResultFlag (s : State) (x : Nibble) (r : Byte) (c : Bool) : State := (s.setV x r).setFlag c

end Sys2Proof.Machine
end

