-- ==== Sys2Proof/Machine/Alu.lean ====
section
/-! DEFINITION. Register load, arithmetic, logic, shift and random instructions (42_alu.md). None can raise an error. -/

namespace Sys2Proof.Machine

/-- `LD Vx, kk` (R64). -/
def execLdImm (x : Nibble) (kk : Byte) (s : State) : Result := .next (s.setV x kk)

/-- `ADD Vx, kk`: modulo 256, no flag (R65). -/
def execAddImm (x : Nibble) (kk : Byte) (s : State) : Result := .next (s.setV x (s.getV x + kk))

/-- `LD Vx, Vy` (R66). -/
def execLdReg (x y : Nibble) (s : State) : Result := .next (s.setV x (s.getV y))

/-- `OR Vx, Vy`: no flag (R67). -/
def execOrReg (x y : Nibble) (s : State) : Result := .next (s.setV x (s.getV x ||| s.getV y))

/-- `AND Vx, Vy`: no flag (R68). -/
def execAndReg (x y : Nibble) (s : State) : Result := .next (s.setV x (s.getV x &&& s.getV y))

/-- `XOR Vx, Vy`: no flag (R69). -/
def execXorReg (x y : Nibble) (s : State) : Result := .next (s.setV x (s.getV x ^^^ s.getV y))

/-- `ADD Vx, Vy`: `VF` = carry (R70). -/
def execAddReg (x y : Nibble) (s : State) : Result :=
  .next (s.setResultFlag x (s.getV x + s.getV y) (carryFlag (s.getV x) (s.getV y)))

/-- `SUB Vx, Vy`: `Vx` minus `Vy`, `VF` = no borrow (R71). -/
def execSubReg (x y : Nibble) (s : State) : Result :=
  .next (s.setResultFlag x (s.getV x - s.getV y) (noBorrowFlag (s.getV x) (s.getV y)))

/-- `SHR Vx`: in place, the field `y` ignored (R72, 92_eei_decisions.md D14). -/
def execShr (x _y : Nibble) (s : State) : Result :=
  .next (s.setResultFlag x (s.getV x >>> 1) (shiftedOutRight (s.getV x)))

/-- `SUBN Vx, Vy`: `Vy` minus `Vx` into `Vx`, `VF` = no borrow (R73). -/
def execSubn (x y : Nibble) (s : State) : Result :=
  .next (s.setResultFlag x (s.getV y - s.getV x) (noBorrowFlag (s.getV y) (s.getV x)))

/-- `SHL Vx`: in place, the field `y` ignored (R74, D14). -/
def execShl (x _y : Nibble) (s : State) : Result :=
  .next (s.setResultFlag x (s.getV x <<< 1) (shiftedOutLeft (s.getV x)))

/-- `RND Vx, kk`: a fresh byte of the `rnd` port masked by `kk` (R75; log 5). -/
def execRnd (x : Nibble) (kk : Byte) (s : State) : Result :=
  .next ((s.setV x (Config.rndByte s.rndReads &&& kk)).countRnd)

end Sys2Proof.Machine
end

