-- ==== Sys2Proof/Machine/Operands.lean ====
section
/-! DEFINITION. Operand forms: immediates (30_encoding.md R38), effective addresses (43_index_memory.md R76), key and digit
numbers (45_keypad_timers.md R86, 43_index_memory.md R79), the skip (41_control_flow.md R52), decimal digits (R80). -/

namespace Sys2Proof.Machine

/-- `zext_16(nnn)` (R38). -/
def zext16 (nnn : Imm12) : Word := nnn.setWidth 16

/-- The exact target `nnn + V[0]` of `JP V0` (R61). -/
def indexedTarget (nnn : Imm12) (s : State) : Nat := nnn.toNat + (s.getV 0x0#4).toNat

/-- The effective address `I + d`, exact (R76). -/
def effAddr (s : State) (d : Nat) : Nat := s.cpu.i.toNat + d

/-- A byte that names one of sixteen things, a key (R86) or a hexadecimal digit (R79); none above 15. -/
def nibbleOperand (b : Byte) : Option Nibble := if b.toNat ≤ 15 then some (b.setWidth 4) else none

/-- The address of the glyph of digit `d`, `FONT_BASE + 5 * d` (R79). -/
def glyphAddr (p : Params) (d : Nibble) : Nat := p.fontBase + 5 * d.toNat

/-- A conditional skip: `pc <- (pc + 2) mod 2^16` when the condition holds, else nothing (R52 (b)). -/
def skipIf (cond : Bool) (s : State) : State := if cond then s.advancePc else s

/-- Hundreds, tens, ones, each a byte 0 to 9 (R80). -/
def decimalDigits (b : Byte) : List Byte :=
  [BitVec.ofNat 8 (b.toNat / 100), BitVec.ofNat 8 (b.toNat / 10 % 10), BitVec.ofNat 8 (b.toNat % 10)]

/-- The least pressed key (45_keypad_timers.md R89). -/
def leastPressed (s : State) : Option Nat := (List.range 16).find? (fun k => s.key (BitVec.ofNat 4 k))

end Sys2Proof.Machine
end

