-- ==== Sys2Proof/Machine/Control.lean ====
section
/-! DEFINITION. Control flow (41_control_flow.md). Each meaning runs in the execute stage: `pc` already holds the address of
the next instruction (40_cycle.md R47). -/

namespace Sys2Proof.Machine

/-- `SYS nnn`: always UnsupportedOperation, carrying the instruction word (R53). -/
def execSys (nnn : Imm12) (s : State) : Result := raise (.unsupportedOperation (encode (.sys nnn))) s

/-- `RET`: pop, with the target check before anything is written (R54). -/
def execRet (s : State) : Result :=
  match pop s with
  | .error e => raise e s
  | .ok (t, popped) => withinMemory t.toNat s (.next (popped.setPc t))

/-- `JP nnn` (R55). -/
def execJp (nnn : Imm12) (s : State) : Result := withinMemory nnn.toNat s (.next (s.setPc (zext16 nnn)))

/-- `CALL nnn`: push the return address, which is the advanced `pc`, then jump; overflow is tested first (R56, R100). -/
def execCall (nnn : Imm12) (s : State) : Result :=
  match push s.cpu.pc s with
  | .error e => raise e s
  | .ok pushed => withinMemory nnn.toNat s (.next (pushed.setPc (zext16 nnn)))

/-- `SE Vx, kk` (R57). -/
def execSeImm (x : Nibble) (kk : Byte) (s : State) : Result := .next (skipIf (s.getV x == kk) s)

/-- `SNE Vx, kk` (R58). -/
def execSneImm (x : Nibble) (kk : Byte) (s : State) : Result := .next (skipIf (s.getV x != kk) s)

/-- `SE Vx, Vy` (R59). -/
def execSeReg (x y : Nibble) (s : State) : Result := .next (skipIf (s.getV x == s.getV y) s)

/-- `SNE Vx, Vy` (R60). -/
def execSneReg (x y : Nibble) (s : State) : Result := .next (skipIf (s.getV x != s.getV y) s)

/-- `JP V0, nnn` (R61). -/
def execJpV0 (nnn : Imm12) (s : State) : Result :=
  withinMemory (indexedTarget nnn s) s (.next (s.setPc (BitVec.ofNat 16 (indexedTarget nnn s))))

/-- `UNSUPPORTED w`: always UnsupportedOperation (R62). -/
def execUnsupported (w : Word) (s : State) : Result := raise (.unsupportedOperation w) s

end Sys2Proof.Machine
end

