-- ==== Sys2Proof/Machine/Screen.lean ====
section
/-! DEFINITION. The screen's side of `CLS` and `DRW` (60_exceptions.md R106) and the reference screen (R107). -/

namespace Sys2Proof.Machine

/-- All 64 by 32 pixels off. -/
def pixelsOff : Pixels := Vector.replicate 32 (Vector.replicate 64 false)

/-- `pix[col][row]`; a place off the screen has no pixel and counts as off. -/
def pixelAt (p : Pixels) (col row : Nat) : Bool :=
  if h : row < 32 ∧ col < 64 then (p[row]'h.1)[col]'h.2 else false

/-- `pix[col][row] <- pix[col][row] ^ 1`; nothing off the screen. -/
def togglePixel (p : Pixels) (col row : Nat) : Pixels :=
  if h : row < 32 ∧ col < 64 then p.set row ((p[row]'h.1).set col (!pixelAt p col row) h.2) h.1 else p

/-- One sprite pixel that is 1: toggled and its collision noted when it lies on the screen, dropped otherwise (R107). -/
def drawPixel (col row : Nat) (acc : Pixels × Bool) : Pixels × Bool :=
  if col < 64 ∧ row < 32 then (togglePixel acc.1 col row, acc.2 || pixelAt acc.1 col row) else acc

/-- The pixels `b`, `b + 1`, ... of one sprite row; bit 7 is the leftmost, `b = 0` (R107). -/
def drawRowFrom (bits : Byte) (x0 row : Nat) : List Nat → Pixels × Bool → Pixels × Bool
  | [], acc => acc
  | b :: rest, acc =>
    drawRowFrom bits x0 row rest (if bits.getLsbD (7 - b) then drawPixel (x0 + b) row acc else acc)

/-- The sprite rows from screen row `row` downward (R107). -/
def drawRows (x0 : Nat) : Nat → List Byte → Pixels × Bool → Pixels × Bool
  | _, [], acc => acc
  | row, bits :: rest, acc => drawRows x0 (row + 1) rest (drawRowFrom bits x0 row (List.range 8) acc)

/-- `ScreenDraw` of the reference screen: the start position wraps, the sprite is clipped (R107). -/
def drawSprite (p : Pixels) (x y : Byte) (rows : List Byte) : Pixels × Bool :=
  drawRows (x.toNat % 64) (y.toNat % 32) rows (p, false)

/-- `ScreenClear()`: every pixel off (R106). A screen of unknown behaviour holds no pixels here. -/
def screenClear : Screen → Screen
  | .reference _ => .reference pixelsOff
  | .external n => .external n

/-- Whether the screen refuses the draw and, if not, the collision bit (R106). The reference screen never refuses (R107).
Another screen answers a free value; a collision needs a 1 bit in the sprite, since only those toggle (R106; log 8). -/
def drawAnswer (sc : Screen) (x y : Byte) (rows : List Byte) : Option Bool :=
  match sc with
  | .reference p => some (drawSprite p x y rows).2
  | .external n => (Config.screenAnswer n).map (fun c => c && rows.any (fun r => r ≠ 0x00#8))

/-- The screen after the request: a reference screen with the sprite drawn, another one with the request counted
(whether or not it refused; log 7). -/
def screenAfterDraw (sc : Screen) (x y : Byte) (rows : List Byte) : Screen :=
  match sc with
  | .reference p => .reference (drawSprite p x y rows).1
  | .external n => .external (n + 1)

end Sys2Proof.Machine
end

