-- ==== Sys2Proof/Machine/Display.lean ====
section
/-! DEFINITION. Display instructions (44_display.md): the block's side of the screen (R83). -/

namespace Sys2Proof.Machine

/-- `CLS` (R84). -/
def execCls (s : State) : Result := .next (s.setScreen (screenClear s.screen))

/-- The request to the screen and the write of its answer into `V[15]`; a refusal is UnsupportedOperation (R85). -/
def drawRequest (w : Word) (vx vy : Byte) (rows : List Byte) (s : State) : Result :=
  match drawAnswer s.screen vx vy rows with
  | none => raise (.unsupportedOperation w) (s.setScreen (screenAfterDraw s.screen vx vy rows))
  | some c => .next ((s.setScreen (screenAfterDraw s.screen vx vy rows)).setFlag c)

/-- `DRW Vx, Vy, n`: the sprite's last address is checked first, but not when `n = 0`, which touches none (R85, R25). -/
def execDrw (x y n : Nibble) (s : State) : Result :=
  let rows := s.readBytes (effAddr s 0) n.toNat
  let request := drawRequest (encode (.drw x y n)) (s.getV x) (s.getV y) rows s
  if n = 0x0#4 then request else withinMemory (effAddr s (n.toNat - 1)) s request

end Sys2Proof.Machine
end

