-- ==== Sys2Proof/Machine/IndexMemory.lean ====
section
/-! DEFINITION. Index-register and memory instructions (43_index_memory.md). `I` is never changed by an access (R76). -/

namespace Sys2Proof.Machine

/-- `LD I, nnn` (R77). -/
def execLdI (nnn : Imm12) (s : State) : Result := .next (s.setI (zext16 nnn))

/-- `ADD I, Vx`: modulo 2^16, no flag (R78). -/
def execAddI (x : Nibble) (s : State) : Result := .next (s.setI (s.cpu.i + (s.getV x).setWidth 16))

/-- `LD F, Vx`: the address of a digit's glyph; a value above 15 is UnsupportedOperation (R79). -/
def execLdF (x : Nibble) (s : State) : Result :=
  match nibbleOperand (s.getV x) with
  | none => raise (.unsupportedOperation (encode (.ldF x))) s
  | some d => .next (s.setI (BitVec.ofNat 16 (glyphAddr s.params d)))

/-- `LD B, Vx`: three decimal digits at `I`, `I + 1`, `I + 2` (R80). -/
def execLdB (x : Nibble) (s : State) : Result :=
  withinMemory (effAddr s 2) s (.next (s.writeBytes (effAddr s 0) (decimalDigits (s.getV x))))

/-- `LD [I], Vx`: store `V[0]` to `V[x]` (R81). -/
def execLdMemVx (x : Nibble) (s : State) : Result :=
  withinMemory (effAddr s x.toNat) s (.next (s.writeBytes (effAddr s 0) (s.regsUpTo x)))

/-- `LD Vx, [I]`: load `V[0]` to `V[x]` (R82). -/
def execLdVxMem (x : Nibble) (s : State) : Result :=
  withinMemory (effAddr s x.toNat) s (.next (s.setRegsFrom 0 (s.readBytes (effAddr s 0) (x.toNat + 1))))

end Sys2Proof.Machine
end

