-- ==== Sys2Proof/Machine/KeypadTimers.lean ====
section
/-! DEFINITION. Keypad and timer instructions (45_keypad_timers.md). -/

namespace Sys2Proof.Machine

/-- `SKP Vx`: skip if key `V[x]` is pressed; a value above 15 is UnsupportedOperation (R86, R87). -/
def execSkp (x : Nibble) (s : State) : Result :=
  match nibbleOperand (s.getV x) with
  | none => raise (.unsupportedOperation (encode (.skp x))) s
  | some k => .next (skipIf (s.key k) s)

/-- `SKNP Vx`: skip if key `V[x]` is not pressed (R86, R88). -/
def execSknp (x : Nibble) (s : State) : Result :=
  match nibbleOperand (s.getV x) with
  | none => raise (.unsupportedOperation (encode (.sknp x))) s
  | some k => .next (skipIf (!s.key k) s)

/-- `LD Vx, K`: the least pressed key, or back onto this instruction when none is down (R89). -/
def execLdVxK (x : Nibble) (s : State) : Result :=
  match leastPressed s with
  | some k => .next (s.setV x (BitVec.ofNat 8 k))
  | none => .next (s.setPc (s.cpu.pc - 2))

/-- `LD Vx, DT` (R90). -/
def execLdVxDt (x : Nibble) (s : State) : Result := .next (s.setV x s.cpu.dt)

/-- `LD DT, Vx` (R91). -/
def execLdDtVx (x : Nibble) (s : State) : Result := .next (s.setDt (s.getV x))

/-- `LD ST, Vx` (R92). -/
def execLdStVx (x : Nibble) (s : State) : Result := .next (s.setSt (s.getV x))

end Sys2Proof.Machine
end

