-- ==== Sys2Proof/Machine/Events.lean ====
section
/-! DEFINITION. The events other than `Step` (00_scope.md R5), and the boot sequence (70_reset_and_hazards.md R113, R115). -/

namespace Sys2Proof.Machine

/-- Count down by one and stop at 0 (60_exceptions.md R105). -/
def countDown (b : Byte) : Byte := if b = 0x00#8 then b else b - 1

/-- `Tick()`: one tick serves both timers (R105). -/
def tick (s : State) : State := (s.setDt (countDown s.cpu.dt)).setSt (countDown s.cpu.st)

/-- `Reset()`: every field of CpuState to its value in R20; memory, screen and parameters untouched (R111). -/
def resetBlock (s : State) : State := { s with cpu := CpuState.zero }

/-- `KeyWrite(k, pressed)` (R108). -/
def keyWrite (k : Nibble) (pressed : Bool) (s : State) : State := s.setKey k pressed

/-- `HostLoadPC(v)`: no check, nothing else (R114). -/
def hostLoadPC (v : Word) (s : State) : State := s.setPc v

/-- `HostMemWrite(addr, byte)`, defined below MEM_LEN only (20_memory.md R24, R31; log 12). -/
def hostMemWrite (addr : Nat) (b : Byte) (s : State) : Result :=
  if addr < s.params.memLen then .next (s.writeByte addr b)
  else .refused (.hostWriteOutside addr s.params.memLen)

/-! ## Boot (R113 to R115) -/

/-- The conventional glyph bytes of digits 0 to 7 (R113, "from general knowledge"). -/
def glyphBytesLow : List Byte := [
  0xF0, 0x90, 0x90, 0x90, 0xF0,  0x20, 0x60, 0x20, 0x20, 0x70,
  0xF0, 0x10, 0xF0, 0x80, 0xF0,  0xF0, 0x10, 0xF0, 0x10, 0xF0,
  0x90, 0x90, 0xF0, 0x10, 0x10,  0xF0, 0x80, 0xF0, 0x10, 0xF0,
  0xF0, 0x80, 0xF0, 0x90, 0xF0,  0xF0, 0x10, 0x20, 0x40, 0x40 ]

/-- The conventional glyph bytes of digits 8 to F (R113). -/
def glyphBytesHigh : List Byte := [
  0xF0, 0x90, 0xF0, 0x90, 0xF0,  0xF0, 0x90, 0xF0, 0x10, 0xF0,
  0xF0, 0x90, 0xF0, 0x90, 0x90,  0xE0, 0x90, 0xE0, 0x90, 0xE0,
  0xF0, 0x80, 0x80, 0x80, 0xF0,  0xE0, 0x90, 0x90, 0x90, 0xE0,
  0xF0, 0x80, 0xF0, 0x80, 0xF0,  0xF0, 0x80, 0xF0, 0x80, 0x80 ]

/-- The host writes that place bytes from an address upward (R113). -/
def hostWrites (a : Nat) : List Byte → List Event
  | [] => []
  | b :: rest => .hostMemWrite a b :: hostWrites (a + 1) rest

/-- The boot order of R115: reset, glyphs and program into memory, `pc` to ENTRY_PC. -/
def bootEvents (p : Params) (program : List Byte) : List Event :=
  [.reset] ++ hostWrites p.fontBase (glyphBytesLow ++ glyphBytesHigh) ++ hostWrites p.entryPc program ++
    [.hostLoadPC (BitVec.ofNat 16 p.entryPc)]

end Sys2Proof.Machine
end

