-- ==== Sys2Proof/Machine/Cycle.lean ====
section
/-! DEFINITION. One whole event: the fetch-decode-execute cycle `Step()` (40_cycle.md R48) and the other five (R5). -/

namespace Sys2Proof.Machine

/-- `Step()`: fetch, decode, execute; the answer is `Ok` unless one of them raised an error (R48). A fetch error leaves
the state unchanged (R45). -/
def cycle (s : State) : Result :=
  match fetch s with
  | .error e => raise e s
  | .ok (w, fetched) => exec (decodeWord w) (fetched.setAnswer .ok)

/-- What the driving loop does with the outcome of a cycle (60_exceptions.md R102). -/
def afterCycle : Result → Result
  | .next t => driverReacts t
  | .fault r => .fault r
  | .refused r => .refused r

/-- One event, whole and atomic (00_scope.md R5). -/
def runEvent (e : Event) (s : State) : Result :=
  match e with
  | .step => afterCycle (cycle s)
  | .tick => .next (tick s)
  | .reset => .next (resetBlock s)
  | .keyWrite k pressed => .next (keyWrite k pressed s)
  | .hostMemWrite addr b => hostMemWrite addr b s
  | .hostLoadPC v => .next (hostLoadPC v s)

/-- The event the driving loop issues next: the head of its schedule; when there is none, the one its continuation gives
(R5; log 2). -/
def nextEvent (s : State) : Event :=
  match s.driver.schedule with
  | e :: _ => e
  | [] =>
    match s.driver.afterwards with
    | .again first _ => first
    | .free n => Config.freeEvent n

/-- The state with the event it issues taken off: off the schedule, off a fresh round of the events that repeat, or counted
as issued. -/
def issueEvent (s : State) : State :=
  match s.driver.schedule with
  | _ :: rest => s.setSchedule rest
  | [] =>
    match s.driver.afterwards with
    | .again _ more => s.setSchedule more
    | .free n => s.setAfterwards (.free (n + 1))

/-- A state whose every event is a `Step`. -/
def stepsNext (s : State) : State := (s.setSchedule []).setAfterwards .steps

/-- The two bytes of an instruction given as table bits, placed where `Fetch` reads them. Where no instruction fits at `pc`
the fetch needs another `pc`, and 0 is taken. -/
def placeAtPc (s : State) (nbits w : Nat) : State :=
  let s' := if s.params.memLen ≤ s.cpu.pc.toNat + 1 then s.setPc 0x0000#16 else s
  s'.writeBytes s'.cpu.pc.toNat [highByte (tableWord nbits w), lowByte (tableWord nbits w)]

end Sys2Proof.Machine
end

