-- ==== Sys2Proof/Machine/Step.lean ====
section
/-! DEFINITION. One step of the machine is one event of 00_scope.md R5, the one the driving loop issues next. -/

namespace Sys2Proof.Machine

/-- One event (R5): the next one the driving loop issues. -/
def step (s : State) : Host.Outcome State Fault Refusal := runEvent (nextEvent s) (issueEvent s)

/-- `s` with an instruction stored where the next `Step` fetches it, and that `Step` the next event (log 10). -/
def State.withFetchWord (s : State) (nbits w : Nat) : State := placeAtPc (stepsNext s) nbits w

end Sys2Proof.Machine
end

