-- ==== Sys2Proof/Safety.lean ====
section
/-! DEFINITION. The terms claims are stated in: the invariant of the machine, the ends of a run (70_reset_and_hazards.md
R120), and what an instruction leaves unchanged. -/

namespace Sys2Proof.Safety

open Sys2Proof.Machine

/-! ## The invariant -/

/-- Every listed byte lies below MEM_LEN (20_memory.md R22). -/
abbrev MemInside (s : State) : Prop := ∀ c ∈ s.mem, c.1 < s.params.memLen

/-- The parameters meet R3's constraints; memory is canonical and inside MEM_LEN (R22); `call_stack[0]` is still 0 (the
derived invariant of 10_state.md R19). -/
structure Inv (s : State) : Prop where
  params     : s.params.Wf
  memWf      : Memory.wf s.mem
  memInside  : MemInside s
  stackBase  : s.stackEntry 0x0#4 = 0x0000#16

/-! ## The ends of a run (R120) -/

/-- The last `Step` answered an error (R120 (a)). -/
def Faulted (s : State) : Prop := s.driver.answer ≠ .ok

/-- `JP A` stands at `A = pc`, inside memory (R120 (b)). -/
def Parked (s : State) : Prop :=
  s.cpu.pc.toNat + 1 < s.params.memLen ∧ s.cpu.pc.toNat ≤ 0xFFF ∧
    (s.wordAt s.cpu.pc.toNat).toNat = 0x1000 + s.cpu.pc.toNat

/-- The driving loop issues nothing but `Step` (the loop's own data, log 2). -/
abbrev StepsOnly (s : State) : Prop := s.driver.schedule = [] ∧ s.driver.afterwards = .steps

/-- A list of events, each run whole from where the one before left the state, whatever the driving loop has in store (R5). -/
def runEvents : List Event → State → Result
  | [], s => .next s
  | e :: es, s =>
    match runEvent e s with
    | .next t => runEvents es t
    | .fault r => .fault r
    | .refused r => .refused r

/-- `k` steps, stopping at the first that stops. -/
def runFor : Nat → State → Result
  | 0, s => .next s
  | k + 1, s =>
    match step s with
    | .next t => runFor k t
    | .fault r => .fault r
    | .refused r => .refused r

/-! ## Frames -/

/-- What may differ between two states; every part not named here is the same. -/
structure MayChange where
  /-- General registers that may differ. -/
  regs      : List Nibble := []
  i         : Bool := false
  pc        : Bool := false
  /-- `sp` and the call-stack entry `stackEntry`. -/
  sp        : Bool := false
  entry     : Option Nibble := none
  dt        : Bool := false
  st        : Bool := false
  /-- The key flag that may differ. -/
  key       : Option Nibble := none
  /-- The bytes `memAt` to `memAt + memCount - 1` may differ. -/
  memAt     : Nat := 0
  memCount  : Nat := 0
  screen    : Bool := false
  rndReads  : Bool := false
  answer    : Bool := false

/-- `t` is `s` but for what `m` names: every other general register, `I`, `pc`, `sp`, every other entry of the call stack,
the timers, every other key flag, EVERY BYTE OF MEMORY outside the named ones, the screen, the parameters, the count of
random draws, the driving loop. -/
structure SameBut (m : MayChange) (s t : State) : Prop where
  regs      : ∀ j, j ∉ m.regs → t.getV j = s.getV j
  i         : m.i = false → t.cpu.i = s.cpu.i
  pc        : m.pc = false → t.cpu.pc = s.cpu.pc
  sp        : m.sp = false → t.cpu.sp = s.cpu.sp
  callStack : ∀ j, some j ≠ m.entry → t.stackEntry j = s.stackEntry j
  dt        : m.dt = false → t.cpu.dt = s.cpu.dt
  st        : m.st = false → t.cpu.st = s.cpu.st
  keypad    : ∀ k, some k ≠ m.key → t.key k = s.key k
  mem       : ∀ a, ¬ (m.memAt ≤ a ∧ a < m.memAt + m.memCount) → t.readByte a = s.readByte a
  screen    : m.screen = false → t.screen = s.screen
  params    : t.params = s.params
  rndReads  : m.rndReads = false → t.rndReads = s.rndReads
  schedule  : t.driver.schedule = s.driver.schedule
  afterwards : t.driver.afterwards = s.driver.afterwards
  policy    : t.driver.policy = s.driver.policy
  answer    : m.answer = false → t.driver.answer = s.driver.answer

/-! ## Who raises what (60_exceptions.md R98), who writes what (10_state.md R10) -/

/-- An `AddressOutOfBounds` with the limit MEM_LEN and an address not below it (R96). -/
def BoundsError (s : State) (e : Error) : Prop :=
  ∃ a, s.params.memLen ≤ a ∧ e = .addressOutOfBounds a s.params.memLen

/-- The errors R98 lists for each instruction, with the payloads of R93 to R97. -/
def MayRaise (i : Instr) (s : State) (e : Error) : Prop :=
  match i with
  | .cls => False
  | .ret => e = .stackUnderflow ∨ BoundsError s e
  | .sys _ => e = .unsupportedOperation (encode i)
  | .jp _ => BoundsError s e
  | .call _ => e = .stackOverflow 15 ∨ BoundsError s e
  | .seImm _ _ => False
  | .sneImm _ _ => False
  | .seReg _ _ => False
  | .ldImm _ _ => False
  | .addImm _ _ => False
  | .ldReg _ _ => False
  | .orReg _ _ => False
  | .andReg _ _ => False
  | .xorReg _ _ => False
  | .addReg _ _ => False
  | .subReg _ _ => False
  | .shr _ _ => False
  | .subn _ _ => False
  | .shl _ _ => False
  | .sneReg _ _ => False
  | .ldI _ => False
  | .jpV0 _ => BoundsError s e
  | .rnd _ _ => False
  | .drw _ _ _ => BoundsError s e ∨ e = .unsupportedOperation (encode i)
  | .skp _ => e = .unsupportedOperation (encode i)
  | .sknp _ => e = .unsupportedOperation (encode i)
  | .ldVxDt _ => False
  | .ldVxK _ => False
  | .ldDtVx _ => False
  | .ldStVx _ => False
  | .addI _ => False
  | .ldF _ => e = .unsupportedOperation (encode i)
  | .ldB _ => BoundsError s e
  | .ldMemVx _ => BoundsError s e
  | .ldVxMem _ => BoundsError s e
  | .unsupported _ => e = .unsupportedOperation (encode i)

/-- The general registers an instruction may write: its destination, and `V[15]` where it writes the flag (R10, R11). -/
def destRegs : Instr → List Nibble
  | .cls => []
  | .ret => []
  | .sys _ => []
  | .jp _ => []
  | .call _ => []
  | .seImm _ _ => []
  | .sneImm _ _ => []
  | .seReg _ _ => []
  | .ldImm x _ => [x]
  | .addImm x _ => [x]
  | .ldReg x _ => [x]
  | .orReg x _ => [x]
  | .andReg x _ => [x]
  | .xorReg x _ => [x]
  | .addReg x _ => [x, 0xF#4]
  | .subReg x _ => [x, 0xF#4]
  | .shr x _ => [x, 0xF#4]
  | .subn x _ => [x, 0xF#4]
  | .shl x _ => [x, 0xF#4]
  | .sneReg _ _ => []
  | .ldI _ => []
  | .jpV0 _ => []
  | .rnd x _ => [x]
  | .drw _ _ _ => [0xF#4]
  | .skp _ => []
  | .sknp _ => []
  | .ldVxDt x => [x]
  | .ldVxK x => [x]
  | .ldDtVx _ => []
  | .ldStVx _ => []
  | .addI _ => []
  | .ldF _ => []
  | .ldB _ => []
  | .ldMemVx _ => []
  | .ldVxMem x => (List.range (x.toNat + 1)).map (BitVec.ofNat 4)
  | .unsupported _ => []

/-! ## Sprites (44_display.md R85, 60_exceptions.md R107) -/

/-- Whether the `n`-row sprite at `I`, drawn at the position `(vx, vy)`, has a 1 bit at pixel `(col, row)`: the start
position is taken modulo 64 and 32, bit 7 of a row byte is its leftmost pixel, the byte at `I` the top row; a place off the
screen has no pixel. -/
def spriteAt (s : State) (vx vy : Byte) (n col row : Nat) : Bool :=
  let x0 := vx.toNat % 64
  let y0 := vy.toNat % 32
  decide (x0 ≤ col ∧ col < x0 + 8 ∧ col < 64 ∧ y0 ≤ row ∧ row < y0 + n ∧ row < 32) &&
    (s.readByte (s.cpu.i.toNat + (row - y0))).getLsbD (7 - (col - x0))

end Sys2Proof.Safety
end

