-- ==== Sys2Proof/Certificates/Slice0/Obligations.lean ====
section
/-! DEFINITION. The statements about the machine, from the spec's numbered rules. The answer of the `step` port is held in
the model's own field `driver.answer` (log 1), which is how "answers the error and writes nothing else" is said here: the state
is `s.setAnswer (.error e)`. Where a clause rests on a choice of the model its docstring says so and names the log entry. -/

section
open Sys2Proof Sys2Proof.Machine Sys2Proof.Safety

/-! ## Encoding -/

/-- Words of spec/95_test_vectors.md 2.1, one or more of every family, and the instruction each stands for. -/
def Obligations.SpecWordsDecodeAsListed : Prop :=
  decodeWord 0x00E0#16 = .cls ∧ decodeWord 0x00EE#16 = .ret ∧ decodeWord 0x00E1#16 = .sys 0x0E1#12 ∧
  decodeWord 0x1ABC#16 = .jp 0xABC#12 ∧ decodeWord 0x2ABC#16 = .call 0xABC#12 ∧
  decodeWord 0x3A42#16 = .seImm 0xA#4 0x42#8 ∧ decodeWord 0x5AB0#16 = .seReg 0xA#4 0xB#4 ∧
  decodeWord 0x5AB1#16 = .unsupported 0x5AB1#16 ∧ decodeWord 0x8AB4#16 = .addReg 0xA#4 0xB#4 ∧
  decodeWord 0x8ABE#16 = .shl 0xA#4 0xB#4 ∧ decodeWord 0xA123#16 = .ldI 0x123#12 ∧
  decodeWord 0xC1FF#16 = .rnd 0x1#4 0xFF#8 ∧ decodeWord 0xD125#16 = .drw 0x1#4 0x2#4 0x5#4 ∧
  decodeWord 0xE0A1#16 = .sknp 0x0#4 ∧ decodeWord 0xFA0A#16 = .ldVxK 0xA#4 ∧
  decodeWord 0xF015#16 = .ldDtVx 0x0#4 ∧ decodeWord 0xF055#16 = .ldMemVx 0x0#4

/-- Decode of the bytes of any well-formed instruction, whatever bytes follow, is that instruction: no bit of an encoding
is dropped (R37, R51). -/
def Obligations.DecodeOfEncodedBytes : Prop :=
  ∀ (i : Instr) (rest : List Byte), i.wellFormed = true → decode (encodeBytes i ++ rest) = .ok (i, rest)

/-- "Decode followed by re-encoding is the identity on all 65536 words" (R51), and every decoded instruction is
well-formed. -/
def Obligations.EncodeOfDecodedWord : Prop :=
  ∀ w : Word, encode (decodeWord w) = w ∧ (decodeWord w).wellFormed = true

/-- The decoder gives what the first row of the opcode table that selects the word builds from it (R39, R40). -/
def Obligations.DecodeIsFirstMatchingRow : Prop :=
  ∀ w : Word, ∃ r, firstRow w = some r ∧ decodeWord w = r.build w

/-- The words decoded as `UNSUPPORTED` are exactly those of R41's table, those decoded as `SYS` exactly the `0nnn` but
`00E0` and `00EE`. -/
def Obligations.ReservedWordsDecodeUnsupported : Prop :=
  ∀ w : Word,
    ((∃ v, decodeWord w = .unsupported v) ↔ reservedWord w = true) ∧
    ((∃ nnn, decodeWord w = .sys nnn) ↔ w.toNat < 0x1000 ∧ w ≠ 0x00E0#16 ∧ w ≠ 0x00EE#16)

/-! ## Fetch, step, errors -/

/-- Fetch reads the big-endian word at `pc` and adds 2 modulo 2^16, or fails with `pc + 1` and MEM_LEN and nothing changed
(R45). -/
def Obligations.FetchReadsWordAndAdvances : Prop :=
  ∀ s : State,
    (s.params.memLen ≤ s.cpu.pc.toNat + 1 →
      fetch s = .error (.addressOutOfBounds (s.cpu.pc.toNat + 1) s.params.memLen) ∧
      cycle s = .next (s.setAnswer (.error (.addressOutOfBounds (s.cpu.pc.toNat + 1) s.params.memLen)))) ∧
    (s.cpu.pc.toNat + 1 < s.params.memLen →
      ∃ w t, fetch s = .ok (w, t) ∧
        w.toNat = 256 * (s.readByte s.cpu.pc.toNat).toNat + (s.readByte (s.cpu.pc.toNat + 1)).toNat ∧
        t.cpu.pc.toNat = (s.cpu.pc.toNat + 2) % 65536 ∧ SameBut { pc := true } s t)

/-- When the next event is `Step` and the two bytes at `pc` lie in memory and decode to `i`, the step is `exec i` at the
state with `pc` advanced by 2, the answer set to `Ok` and the event taken off what the driving loop has in store, then the
driving loop's reaction (R46 to R48; the loop's data, the recorded answer and the reaction are the model's, log 1 and log 2).
The next event is `Step` when the loop issues nothing else, when `Step` heads its schedule, and whenever a free event is one. -/
def Obligations.StepRunsDecodedInstruction : Prop :=
  ∀ (s : State) (i : Instr), s.cpu.pc.toNat + 1 < s.params.memLen →
    decode (s.readBytes s.cpu.pc.toNat 2) = .ok (i, []) →
    (StepsOnly s → step s = afterCycle (exec i (s.advancePc.setAnswer .ok))) ∧
    (∀ es, s.driver.schedule = .step :: es →
      step s = afterCycle (exec i (((s.setSchedule es).advancePc).setAnswer .ok))) ∧
    (nextEvent s = .step → step s = afterCycle (exec i (((issueEvent s).advancePc).setAnswer .ok)))

/-- The other events of R5, each taken off the schedule and run whole; with the schedule used up, the events that repeat
begin again, or the next free event is run whole and counted (schedule and continuation are the model's, log 2). -/
def Obligations.ScheduledEventsRunWhole : Prop :=
  ∀ (s : State) (es : List Event),
    (s.driver.schedule = .tick :: es → step s = .next (tick (s.setSchedule es))) ∧
    (s.driver.schedule = .reset :: es → step s = .next (resetBlock (s.setSchedule es))) ∧
    (∀ k p, s.driver.schedule = .keyWrite k p :: es → step s = .next (keyWrite k p (s.setSchedule es))) ∧
    (∀ v, s.driver.schedule = .hostLoadPC v :: es → step s = .next (hostLoadPC v (s.setSchedule es))) ∧
    (∀ a b, s.driver.schedule = .hostMemWrite a b :: es → step s = hostMemWrite a b (s.setSchedule es)) ∧
    (∀ e, s.driver.schedule = [] → s.driver.afterwards = .again e es → step s = runEvent e (s.setSchedule es)) ∧
    (∀ n, s.driver.schedule = [] → s.driver.afterwards = .free n →
      step s = runEvent (Config.freeEvent n) (s.setAfterwards (.free (n + 1))))

/-- "any number of `Tick`, `KeyWrite`, `HostMemWrite`, `Reset` and `HostLoadPC` events may occur, including none" (R5): every
list of events, in any order, is what some run does, each event whole from where the one before left the machine. Not under
the policy `reset`, which puts a Reset of its own after an error (log 1, log 2). -/
def Obligations.EveryInterleavingIsARun : Prop :=
  ∀ (es : List Event) (s : State), s.driver.policy ≠ .reset →
    runFor es.length (s.setSchedule es) = runEvents es (s.setSchedule [])

/-- "after a fetch error the same error recurs" (R102): when only `Step` is issued and the policy is `skip`, a step that cannot
fetch answers the error, and every further step leaves the state it reached as it is. -/
def Obligations.FailedFetchRecurs : Prop :=
  ∀ s : State, s.params.memLen ≤ s.cpu.pc.toNat + 1 → StepsOnly s → s.driver.policy = .skip →
    ∃ t, step s = .next t ∧
      t.driver.answer = .error (.addressOutOfBounds (s.cpu.pc.toNat + 1) s.params.memLen) ∧
      SameBut { answer := true } s t ∧ ∀ k, runFor k t = .next t

/-- What the driving loop does after an error, by its policy (R102 names the three; the policy is the model's own field,
log 1), and that it does nothing after `Ok`. -/
def Obligations.ErrorIsFollowedByPolicy : Prop :=
  ∀ t : State,
    (¬ Faulted t → driverReacts t = .next t) ∧
    (∀ e, t.driver.answer = .error e →
      (t.driver.policy = .skip → driverReacts t = .next t) ∧
      (t.driver.policy = .reset → driverReacts t = .next (t.setSchedule (.reset :: t.driver.schedule))) ∧
      (t.driver.policy = .halt → driverReacts t = .fault (.halted e)))

/-- "an error does not stop the block" (R48): a step of the machine stops in two cases only, a `Step` that answered an error
under the policy `halt` (R102, R120 (a)), and a host write outside memory (the policy and the refusal are the model's, log 1
and log 12). -/
def Obligations.OnlyHaltOrBadHostWriteStops : Prop :=
  ∀ s : State,
    (∀ r, step s = .fault r → nextEvent s = .step ∧ s.driver.policy = .halt ∧ ∃ e, r = .halted e) ∧
    (∀ r, step s = .refused r → ∃ a b, nextEvent s = .hostMemWrite a b ∧ s.params.memLen ≤ a ∧
      r = .hostWriteOutside a s.params.memLen)

/-- Every instruction answers a next state in every state: an error is an answer, not a stop (R47, R48). -/
def Obligations.EveryInstructionAnswersNext : Prop :=
  ∀ (i : Instr) (s : State), ∃ t, exec i s = .next t

/-- An instruction raises only the errors R98 lists for it, with the payloads of R93: MEM_LEN and an address not below it,
the stack length 15, the instruction word. -/
def Obligations.ErrorsAreThoseListed : Prop :=
  ∀ (i : Instr) (s t : State) (e : Error), s.driver.answer = .ok → exec i s = .next t →
    t.driver.answer = .error e → MayRaise i s e

/-- "an operation either completes in full or raises exactly one error and writes nothing" (R47): the state after an error
is the state the execute stage started in but for the recorded answer (and, with a screen other than the reference one,
that screen's count of requests, which is the model's own, log 7). -/
def Obligations.FailingInstructionWritesNothing : Prop :=
  ∀ (i : Instr) (s t : State) (e : Error), s.driver.answer = .ok → exec i s = .next t →
    t.driver.answer = .error e →
      t = s.setAnswer (.error e) ∨
      ∃ n, s.screen = .external n ∧ t = (s.setScreen (.external (n + 1))).setAnswer (.error e)

/-- The recorded answer is never read: a `Step` does the same whatever the last answer was (R18: no error latch; R102:
"The block keeps no memory of the error"). -/
def Obligations.LastAnswerIsNeverRead : Prop :=
  ∀ (s : State) (a : Answer), nextEvent s = .step → step (s.setAnswer a) = step s

/-! ## The stack -/

/-- `Push` (R49). -/
def Obligations.PushIncrementsThenWrites : Prop :=
  ∀ (v : Word) (s : State),
    (s.cpu.sp = 0xF#4 → push v s = .error (.stackOverflow 15)) ∧
    (s.cpu.sp ≠ 0xF#4 → ∃ t, push v s = .ok t ∧ t.cpu.sp.toNat = s.cpu.sp.toNat + 1 ∧
      t.stackEntry t.cpu.sp = v ∧ t.cpu.sp ≠ 0x0#4 ∧ SameBut { sp := true, entry := some t.cpu.sp } s t)

/-- `Pop` (R50); the popped entry keeps its value. -/
def Obligations.PopReadsThenDecrements : Prop :=
  ∀ s : State,
    (s.cpu.sp = 0x0#4 → pop s = .error .stackUnderflow) ∧
    (s.cpu.sp ≠ 0x0#4 → ∃ t, pop s = .ok (s.stackEntry s.cpu.sp, t) ∧
      t.cpu.sp.toNat + 1 = s.cpu.sp.toNat ∧ SameBut { sp := true } s t)

/-- Push every word of a list, first first. -/
def Sys2Proof.Safety.pushAll : List Word → State → Except Error State
  | [], s => .ok s
  | v :: vs, s =>
    match push v s with
    | .error e => .error e
    | .ok t => Sys2Proof.Safety.pushAll vs t

/-- Pop `n` words, in the order they come. -/
def Sys2Proof.Safety.popMany : Nat → State → Except Error (List Word × State)
  | 0, s => .ok ([], s)
  | n + 1, s =>
    match pop s with
    | .error e => .error e
    | .ok (v, t) =>
      match Sys2Proof.Safety.popMany n t with
      | .error e => .error e
      | .ok (vs, u) => .ok (v :: vs, u)

/-- "For all sequences of pushes within capacity ... popping the same number of times yields values in exact reverse order
(LIFO)" (R50's law); `sp` is back where it was, and no entry up to it has changed. -/
def Obligations.PushedWordsPopInReverse : Prop :=
  ∀ (vs : List Word) (s : State), s.cpu.sp.toNat + vs.length ≤ 15 →
    ∃ t u, Sys2Proof.Safety.pushAll vs s = .ok t ∧ Sys2Proof.Safety.popMany vs.length t = .ok (vs.reverse, u) ∧
      u.cpu.sp = s.cpu.sp ∧ ∀ j : Nibble, j.toNat ≤ s.cpu.sp.toNat → u.stackEntry j = s.stackEntry j

/-! ## Control flow -/

/-- `SYS` and `UNSUPPORTED` raise `UnsupportedOperation` with the instruction word and write nothing (R53, R62). -/
def Obligations.SysAndUnsupportedRaise : Prop :=
  (∀ (nnn : Imm12) (s : State),
    exec (.sys nnn) s = .next (s.setAnswer (.error (.unsupportedOperation (nnn.setWidth 16))))) ∧
  (∀ (w : Word) (s : State), exec (.unsupported w) s = .next (s.setAnswer (.error (.unsupportedOperation w))))

/-- `RET` (R54). -/
def Obligations.RetPopsIntoPc : Prop :=
  ∀ s : State,
    (s.cpu.sp = 0x0#4 → exec .ret s = .next (s.setAnswer (.error .stackUnderflow))) ∧
    (s.cpu.sp ≠ 0x0#4 → s.params.memLen ≤ (s.stackEntry s.cpu.sp).toNat →
      exec .ret s = .next (s.setAnswer
        (.error (.addressOutOfBounds (s.stackEntry s.cpu.sp).toNat s.params.memLen)))) ∧
    (s.cpu.sp ≠ 0x0#4 → (s.stackEntry s.cpu.sp).toNat < s.params.memLen →
      ∃ t, exec .ret s = .next t ∧ t.cpu.sp.toNat + 1 = s.cpu.sp.toNat ∧ t.cpu.pc = s.stackEntry s.cpu.sp ∧
        SameBut { pc := true, sp := true } s t)

/-- `JP nnn` (R55). -/
def Obligations.JpLoadsPc : Prop :=
  ∀ (nnn : Imm12) (s : State),
    (s.params.memLen ≤ nnn.toNat →
      exec (.jp nnn) s = .next (s.setAnswer (.error (.addressOutOfBounds nnn.toNat s.params.memLen)))) ∧
    (nnn.toNat < s.params.memLen →
      ∃ t, exec (.jp nnn) s = .next t ∧ t.cpu.pc.toNat = nnn.toNat ∧ SameBut { pc := true } s t)

/-- `CALL nnn` (R56): the pushed word is `pc` as the execute stage finds it, the address of the next instruction. -/
def Obligations.CallPushesAndJumps : Prop :=
  ∀ (nnn : Imm12) (s : State),
    (s.cpu.sp = 0xF#4 → exec (.call nnn) s = .next (s.setAnswer (.error (.stackOverflow 15)))) ∧
    (s.cpu.sp ≠ 0xF#4 → s.params.memLen ≤ nnn.toNat →
      exec (.call nnn) s = .next (s.setAnswer (.error (.addressOutOfBounds nnn.toNat s.params.memLen)))) ∧
    (s.cpu.sp ≠ 0xF#4 → nnn.toNat < s.params.memLen →
      ∃ t, exec (.call nnn) s = .next t ∧ t.cpu.sp.toNat = s.cpu.sp.toNat + 1 ∧
        t.stackEntry t.cpu.sp = s.cpu.pc ∧ t.cpu.pc.toNat = nnn.toNat ∧
        SameBut { pc := true, sp := true, entry := some t.cpu.sp } s t)

/-- The four register skips: 2 more is added to `pc`, modulo 2^16, exactly when the condition holds (R57 to R60). -/
def Obligations.SkipsAddTwoWhenConditionHolds : Prop :=
  ∀ (x y : Nibble) (kk : Byte) (s : State),
    (∃ t, exec (.seImm x kk) s = .next t ∧ SameBut { pc := true } s t ∧
      t.cpu.pc.toNat = (if s.getV x = kk then (s.cpu.pc.toNat + 2) % 65536 else s.cpu.pc.toNat)) ∧
    (∃ t, exec (.sneImm x kk) s = .next t ∧ SameBut { pc := true } s t ∧
      t.cpu.pc.toNat = (if s.getV x = kk then s.cpu.pc.toNat else (s.cpu.pc.toNat + 2) % 65536)) ∧
    (∃ t, exec (.seReg x y) s = .next t ∧ SameBut { pc := true } s t ∧
      t.cpu.pc.toNat = (if s.getV x = s.getV y then (s.cpu.pc.toNat + 2) % 65536 else s.cpu.pc.toNat)) ∧
    (∃ t, exec (.sneReg x y) s = .next t ∧ SameBut { pc := true } s t ∧
      t.cpu.pc.toNat = (if s.getV x = s.getV y then s.cpu.pc.toNat else (s.cpu.pc.toNat + 2) % 65536))

/-- `JP V0, nnn` (R61): the exact sum is checked, then loaded. -/
def Obligations.JpV0AddsOffset : Prop :=
  ∀ (nnn : Imm12) (s : State),
    (s.params.memLen ≤ nnn.toNat + (s.getV 0x0#4).toNat →
      exec (.jpV0 nnn) s = .next (s.setAnswer
        (.error (.addressOutOfBounds (nnn.toNat + (s.getV 0x0#4).toNat) s.params.memLen)))) ∧
    (nnn.toNat + (s.getV 0x0#4).toNat < s.params.memLen →
      ∃ t, exec (.jpV0 nnn) s = .next t ∧ t.cpu.pc.toNat = nnn.toNat + (s.getV 0x0#4).toNat ∧
        SameBut { pc := true } s t)

/-! ## Arithmetic and logic -/

/-- `LD Vx, kk`, `LD Vx, Vy`, `OR`, `AND`, `XOR`: the result in `V[x]` and nothing else, so `VF` only when `x = 15` (R64, R66
to R69). -/
def Obligations.LoadsAndLogicWriteOneRegister : Prop :=
  ∀ (x y : Nibble) (kk : Byte) (s : State),
    (∃ t, exec (.ldImm x kk) s = .next t ∧ t.getV x = kk ∧ SameBut { regs := [x] } s t) ∧
    (∃ t, exec (.ldReg x y) s = .next t ∧ t.getV x = s.getV y ∧ SameBut { regs := [x] } s t) ∧
    (∃ t, exec (.orReg x y) s = .next t ∧ SameBut { regs := [x] } s t ∧
      ∀ k, (t.getV x).getLsbD k = ((s.getV x).getLsbD k || (s.getV y).getLsbD k)) ∧
    (∃ t, exec (.andReg x y) s = .next t ∧ SameBut { regs := [x] } s t ∧
      ∀ k, (t.getV x).getLsbD k = ((s.getV x).getLsbD k && (s.getV y).getLsbD k)) ∧
    (∃ t, exec (.xorReg x y) s = .next t ∧ SameBut { regs := [x] } s t ∧
      ∀ k, (t.getV x).getLsbD k = ((s.getV x).getLsbD k ^^ (s.getV y).getLsbD k))

/-- `ADD Vx, kk`: the sum modulo 256, no flag (R65). -/
def Obligations.AddImmWrapsWithoutFlag : Prop :=
  ∀ (x : Nibble) (kk : Byte) (s : State),
    ∃ t, exec (.addImm x kk) s = .next t ∧ (t.getV x).toNat = ((s.getV x).toNat + kk.toNat) % 256 ∧
      SameBut { regs := [x] } s t

/-- `ADD Vx, Vy`: `VF` is the carry of the exact sum, also when `x = 15`; otherwise `V[x]` is the sum modulo 256 (R70). -/
def Obligations.AddSetsCarry : Prop :=
  ∀ (x y : Nibble) (s : State),
    ∃ t, exec (.addReg x y) s = .next t ∧
      (t.getV 0xF#4).toNat = (if (s.getV x).toNat + (s.getV y).toNat > 255 then 1 else 0) ∧
      (x ≠ 0xF#4 → (t.getV x).toNat = ((s.getV x).toNat + (s.getV y).toNat) % 256) ∧
      SameBut { regs := [x, 0xF#4] } s t

/-- `SUB Vx, Vy`: `VF` = 1 exactly when no borrow, also when `x = 15`; otherwise `V[x]` is the difference modulo 256 (R71). -/
def Obligations.SubSetsNoBorrow : Prop :=
  ∀ (x y : Nibble) (s : State),
    ∃ t, exec (.subReg x y) s = .next t ∧
      (t.getV 0xF#4).toNat = (if (s.getV x).toNat ≥ (s.getV y).toNat then 1 else 0) ∧
      (x ≠ 0xF#4 → (t.getV x).toNat = ((s.getV x).toNat + 256 - (s.getV y).toNat) % 256) ∧
      SameBut { regs := [x, 0xF#4] } s t

/-- `SUBN Vx, Vy`: `Vy` minus `Vx` into `Vx`, `VF` = 1 exactly when no borrow (R73). -/
def Obligations.SubnSetsNoBorrow : Prop :=
  ∀ (x y : Nibble) (s : State),
    ∃ t, exec (.subn x y) s = .next t ∧
      (t.getV 0xF#4).toNat = (if (s.getV y).toNat ≥ (s.getV x).toNat then 1 else 0) ∧
      (x ≠ 0xF#4 → (t.getV x).toNat = ((s.getV y).toNat + 256 - (s.getV x).toNat) % 256) ∧
      SameBut { regs := [x, 0xF#4] } s t

/-- `SHR` and `SHL` shift `V[x]` by one in place, whatever the field `y`; `VF` is the bit shifted out, also when `x = 15`
(R72, R74). -/
def Obligations.ShiftsSetBitShiftedOut : Prop :=
  ∀ (x y : Nibble) (s : State),
    (∃ t, exec (.shr x y) s = .next t ∧ (t.getV 0xF#4).toNat = (s.getV x).toNat % 2 ∧
      (x ≠ 0xF#4 → (t.getV x).toNat = (s.getV x).toNat / 2) ∧ SameBut { regs := [x, 0xF#4] } s t) ∧
    (∃ t, exec (.shl x y) s = .next t ∧ (t.getV 0xF#4).toNat = (s.getV x).toNat / 128 ∧
      (x ≠ 0xF#4 → (t.getV x).toNat = (s.getV x).toNat * 2 % 256) ∧ SameBut { regs := [x, 0xF#4] } s t)

/-- `RND Vx, kk`: the byte the port gives, a free value (log 5), masked by `kk`; so every bit of `V[x]` where `kk` has a 0 is
0. The count of reads is the model's own and goes up by one, so the next draw is a fresh one. -/
def Obligations.RndMasksFreshDraw : Prop :=
  ∀ (x : Nibble) (kk : Byte) (s : State),
    ∃ t, exec (.rnd x kk) s = .next t ∧
      (∀ k, (t.getV x).getLsbD k = ((Config.rndByte s.rndReads).getLsbD k && kk.getLsbD k)) ∧
      t.rndReads = s.rndReads + 1 ∧ SameBut { regs := [x], rndReads := true } s t

/-! ## Index register and memory -/

/-- `LD I, nnn` and `ADD I, Vx`: no flag (R77, R78). -/
def Obligations.IndexLoadAndAdd : Prop :=
  ∀ (nnn : Imm12) (x : Nibble) (s : State),
    (∃ t, exec (.ldI nnn) s = .next t ∧ t.cpu.i.toNat = nnn.toNat ∧ SameBut { i := true } s t) ∧
    (∃ t, exec (.addI x) s = .next t ∧ t.cpu.i.toNat = (s.cpu.i.toNat + (s.getV x).toNat) % 65536 ∧
      SameBut { i := true } s t)

/-- `LD F, Vx` (R79), with the parameters within R3's constraints. -/
def Obligations.GlyphAddressOrUnsupported : Prop :=
  ∀ (x : Nibble) (s : State), s.params.Wf →
    (15 < (s.getV x).toNat →
      exec (.ldF x) s = .next (s.setAnswer (.error (.unsupportedOperation (encode (.ldF x)))))) ∧
    ((s.getV x).toNat ≤ 15 →
      ∃ t, exec (.ldF x) s = .next t ∧ t.cpu.i.toNat = s.params.fontBase + 5 * (s.getV x).toNat ∧
        SameBut { i := true } s t)

/-- `LD B, Vx` (R80): `I` is unchanged, and so is every byte but the three. -/
def Obligations.DecimalDigitsStored : Prop :=
  ∀ (x : Nibble) (s : State),
    (s.params.memLen ≤ s.cpu.i.toNat + 2 →
      exec (.ldB x) s = .next (s.setAnswer (.error (.addressOutOfBounds (s.cpu.i.toNat + 2) s.params.memLen)))) ∧
    (s.cpu.i.toNat + 2 < s.params.memLen →
      ∃ t, exec (.ldB x) s = .next t ∧
        (t.readByte (effAddr s 0)).toNat = (s.getV x).toNat / 100 ∧
        (t.readByte (effAddr s 1)).toNat = (s.getV x).toNat / 10 % 10 ∧
        (t.readByte (effAddr s 2)).toNat = (s.getV x).toNat % 10 ∧
        SameBut { memAt := effAddr s 0, memCount := 3 } s t)

/-- `LD [I], Vx` (R81): `V[0]` to `V[x]` from `I` upward; `I` is unchanged, and so is every other byte. -/
def Obligations.RegistersStoredFromI : Prop :=
  ∀ (x : Nibble) (s : State),
    (s.params.memLen ≤ s.cpu.i.toNat + x.toNat →
      exec (.ldMemVx x) s = .next (s.setAnswer
        (.error (.addressOutOfBounds (s.cpu.i.toNat + x.toNat) s.params.memLen)))) ∧
    (s.cpu.i.toNat + x.toNat < s.params.memLen →
      ∃ t, exec (.ldMemVx x) s = .next t ∧
        (∀ j : Nibble, j.toNat ≤ x.toNat → t.readByte (effAddr s j.toNat) = s.getV j) ∧
        SameBut { memAt := effAddr s 0, memCount := x.toNat + 1 } s t)

/-- `LD Vx, [I]` (R82): `V[0]` to `V[x]` from `I` upward; the registers above `V[x]`, `I` and memory are unchanged. -/
def Obligations.RegistersLoadedFromI : Prop :=
  ∀ (x : Nibble) (s : State),
    (s.params.memLen ≤ s.cpu.i.toNat + x.toNat →
      exec (.ldVxMem x) s = .next (s.setAnswer
        (.error (.addressOutOfBounds (s.cpu.i.toNat + x.toNat) s.params.memLen)))) ∧
    (s.cpu.i.toNat + x.toNat < s.params.memLen →
      ∃ t, exec (.ldVxMem x) s = .next t ∧
        (∀ j : Nibble, j.toNat ≤ x.toNat → t.getV j = s.readByte (effAddr s j.toNat)) ∧
        SameBut { regs := destRegs (.ldVxMem x) } s t ∧
        ∀ j : Nibble, x.toNat < j.toNat → t.getV j = s.getV j)

/-- Storing `V[0]` to `V[x]` and loading them back, with any registers in between, gives them back (R81, R82). -/
def Obligations.StoreThenLoadGivesRegistersBack : Prop :=
  ∀ (x : Nibble) (s t u v : State), s.cpu.i.toNat + x.toNat < s.params.memLen → exec (.ldMemVx x) s = .next t →
    u.mem = t.mem → u.cpu.i = s.cpu.i → u.params = s.params → exec (.ldVxMem x) u = .next v →
    ∀ j : Nibble, j.toNat ≤ x.toNat → v.getV j = s.getV j

/-- A store is seen by the next fetch with no fence (R33): a word stored as two bytes by `LD [I], Vx` is what a fetch at `I`
then returns, high byte first. -/
def Obligations.StoredWordIsFetched : Prop :=
  ∀ (x : Nibble) (s t : State), 1 ≤ x.toNat → s.cpu.i.toNat + x.toNat < s.params.memLen →
    exec (.ldMemVx x) s = .next t → t.cpu.pc = s.cpu.i →
    ∃ w u, fetch t = .ok (w, u) ∧ w.toNat = 256 * (s.getV 0x0#4).toNat + (s.getV 0x1#4).toNat

/-! ## Display -/

/-- `CLS`: every pixel off and nothing else; with a screen other than the reference one nothing the model holds changes
(R84; log 7). -/
def Obligations.ClsClearsScreen : Prop :=
  ∀ s : State,
    (∀ p, s.screen = .reference p → ∃ t q, exec .cls s = .next t ∧ t.screen = .reference q ∧
      (∀ col row, pixelAt q col row = false) ∧ SameBut { screen := true } s t) ∧
    (∀ n, s.screen = .external n → exec .cls s = .next s)

/-- `DRW` out of bounds answers `AddressOutOfBounds` with the sprite's last address before the screen is asked, and not
when `n = 0` (R85, R100 item 4); a screen that refuses gives `UnsupportedOperation` with the instruction word; else the
collision bit goes to `VF` and nothing but `VF` and the screen changes. What a screen other than the reference one answers is
a free value, its count of requests the model's own (log 7, log 8). -/
def Obligations.DrwChecksThenAsksScreen : Prop :=
  ∀ (x y n : Nibble) (s : State),
    (n ≠ 0x0#4 → s.params.memLen ≤ s.cpu.i.toNat + n.toNat - 1 →
      exec (.drw x y n) s = .next (s.setAnswer
        (.error (.addressOutOfBounds (s.cpu.i.toNat + n.toNat - 1) s.params.memLen)))) ∧
    (n = 0x0#4 ∨ s.cpu.i.toNat + n.toNat - 1 < s.params.memLen →
      ∀ k, s.screen = .external k →
        match Config.screenAnswer k with
        | none => exec (.drw x y n) s = .next ((s.setScreen (.external (k + 1))).setAnswer
            (.error (.unsupportedOperation (encode (.drw x y n)))))
        | some c => ∃ t, exec (.drw x y n) s = .next t ∧ t.screen = .external (k + 1) ∧
            ((t.getV 0xF#4).toNat = 1 ↔
              c = true ∧ ∃ r, r < n.toNat ∧ s.readByte (s.cpu.i.toNat + r) ≠ 0x00#8) ∧
            (t.getV 0xF#4).toNat ≤ 1 ∧ SameBut { regs := [0xF#4], screen := true } s t)

/-- `DRW` on the reference screen, which never refuses: each pixel is exclusive-ored with the sprite's bit there, and `VF` is
1 exactly when a pixel went from on to off (R85, R107). With `n = 0` the sprite has no bit: no pixel changes and `VF` is 0. -/
def Obligations.DrwXorsSpriteOnReferenceScreen : Prop :=
  ∀ (x y n : Nibble) (s : State) (p : Pixels), s.screen = .reference p →
    n = 0x0#4 ∨ s.cpu.i.toNat + n.toNat - 1 < s.params.memLen →
    ∃ t q, exec (.drw x y n) s = .next t ∧ t.screen = .reference q ∧
      (∀ col row, pixelAt q col row =
        (pixelAt p col row ^^ spriteAt s (s.getV x) (s.getV y) n.toNat col row)) ∧
      ((t.getV 0xF#4).toNat = 1 ↔ ∃ col row, pixelAt p col row = true ∧ pixelAt q col row = false) ∧
      (t.getV 0xF#4).toNat ≤ 1 ∧ SameBut { regs := [0xF#4], screen := true } s t

/-- "Drawing the same sprite twice at the same place restores the screen" (R85): the place is the same when neither
coordinate register is `VF`, which the first draw writes. The second draw sets `VF` exactly when some 1 bit of the sprite
landed on a pixel that was off before the first (log 17). -/
def Obligations.DrawingTwiceRestoresScreen : Prop :=
  ∀ (x y n : Nibble) (s t u : State) (p : Pixels), s.screen = .reference p → x ≠ 0xF#4 → y ≠ 0xF#4 →
    n = 0x0#4 ∨ s.cpu.i.toNat + n.toNat - 1 < s.params.memLen →
    exec (.drw x y n) s = .next t → exec (.drw x y n) t = .next u →
    u.screen = s.screen ∧
      ((u.getV 0xF#4).toNat = 1 ↔
        ∃ col row, spriteAt s (s.getV x) (s.getV y) n.toNat col row = true ∧ pixelAt p col row = false)

/-! ## Keypad and timers -/

/-- `SKP` and `SKNP` (R87, R88). -/
def Obligations.KeySkipsTestOneKey : Prop :=
  ∀ (x : Nibble) (s : State),
    (15 < (s.getV x).toNat →
      exec (.skp x) s = .next (s.setAnswer (.error (.unsupportedOperation (encode (.skp x))))) ∧
      exec (.sknp x) s = .next (s.setAnswer (.error (.unsupportedOperation (encode (.sknp x)))))) ∧
    (∀ k : Nibble, (s.getV x).toNat = k.toNat →
      (∃ t, exec (.skp x) s = .next t ∧ SameBut { pc := true } s t ∧
        t.cpu.pc.toNat = (if s.key k = true then (s.cpu.pc.toNat + 2) % 65536 else s.cpu.pc.toNat)) ∧
      (∃ t, exec (.sknp x) s = .next t ∧ SameBut { pc := true } s t ∧
        t.cpu.pc.toNat = (if s.key k = true then s.cpu.pc.toNat else (s.cpu.pc.toNat + 2) % 65536)))

/-- `LD Vx, K` (R89): the least pressed key, or `pc` back by 2 modulo 2^16 when none is down. -/
def Obligations.WaitForKeyTakesLeastKey : Prop :=
  ∀ (x : Nibble) (s : State),
    (∀ k : Nibble, s.key k = true → (∀ j : Nibble, j.toNat < k.toNat → s.key j = false) →
      ∃ t, exec (.ldVxK x) s = .next t ∧ (t.getV x).toNat = k.toNat ∧ SameBut { regs := [x] } s t) ∧
    ((∀ k : Nibble, s.key k = false) →
      ∃ t, exec (.ldVxK x) s = .next t ∧ t.cpu.pc.toNat = (s.cpu.pc.toNat + 65534) % 65536 ∧
        SameBut { pc := true } s t)

/-- "so the step as a whole leaves `pc` where it was" (R13, R89): a `Step` that fetches `LD Vx, K` with no key down answers
`Ok` and changes nothing else. -/
def Obligations.WaitingStepChangesNothing : Prop :=
  ∀ (x : Nibble) (s : State), StepsOnly s → s.cpu.pc.toNat + 1 < s.params.memLen →
    decode (s.readBytes s.cpu.pc.toNat 2) = .ok (.ldVxK x, []) → (∀ k : Nibble, s.key k = false) →
    step s = .next (s.setAnswer .ok)

/-- `LD Vx, DT`, `LD DT, Vx`, `LD ST, Vx` (R90 to R92). -/
def Obligations.TimerMoves : Prop :=
  ∀ (x : Nibble) (s : State),
    (∃ t, exec (.ldVxDt x) s = .next t ∧ t.getV x = s.cpu.dt ∧ SameBut { regs := [x] } s t) ∧
    (∃ t, exec (.ldDtVx x) s = .next t ∧ t.cpu.dt = s.getV x ∧ SameBut { dt := true } s t) ∧
    (∃ t, exec (.ldStVx x) s = .next t ∧ t.cpu.st = s.getV x ∧ SameBut { st := true } s t)

/-! ## Events -/

/-- `Tick`: each timer counts down by one and stops at 0; nothing else is written (R105). -/
def Obligations.TickCountsDownToZero : Prop :=
  ∀ s : State, (tick s).cpu.dt.toNat = s.cpu.dt.toNat - 1 ∧ (tick s).cpu.st.toNat = s.cpu.st.toNat - 1 ∧
    SameBut { dt := true, st := true } s (tick s)

/-- Any number of ticks: each timer is that much less, or 0 (R105, R117). -/
def Obligations.TicksReachZero : Prop :=
  ∀ (n : Nat) (s : State), (tick^[n] s).cpu.dt.toNat = s.cpu.dt.toNat - n ∧
    (tick^[n] s).cpu.st.toNat = s.cpu.st.toNat - n ∧ SameBut { dt := true, st := true } s (tick^[n] s)

/-- `KeyWrite(k, pressed)` writes that one flag and nothing else (R108). -/
def Obligations.KeyWriteSetsOneFlag : Prop :=
  ∀ (k : Nibble) (pressed : Bool) (s : State),
    (keyWrite k pressed s).key k = pressed ∧ SameBut { key := some k } s (keyWrite k pressed s)

/-- `HostLoadPC(v)` writes `pc` and nothing else; `HostMemWrite` writes one byte below MEM_LEN and nothing else (R114, R31),
and is refused elsewhere, where R24 defines no write (the model's choice, log 12). -/
def Obligations.HostWritesOnePlace : Prop :=
  ∀ (v : Word) (a : Nat) (b : Byte) (s : State),
    ((hostLoadPC v s).cpu.pc = v ∧ SameBut { pc := true } s (hostLoadPC v s)) ∧
    (a < s.params.memLen → ∃ t, hostMemWrite a b s = .next t ∧ t.readByte a = b ∧
      SameBut { memAt := a, memCount := 1 } s t) ∧
    (s.params.memLen ≤ a → hostMemWrite a b s = .refused (.hostWriteOutside a s.params.memLen))

/-- `Reset`, from any state: every field of CpuState is zero; memory, screen and parameters are untouched (R111). -/
def Obligations.ResetZeroesCpuState : Prop :=
  ∀ s : State,
    (∀ j : Nibble, (resetBlock s).getV j = 0x00#8 ∧ (resetBlock s).stackEntry j = 0x0000#16 ∧
      (resetBlock s).key j = false) ∧
    (resetBlock s).cpu.i = 0x0000#16 ∧ (resetBlock s).cpu.pc = 0x0000#16 ∧ (resetBlock s).cpu.sp = 0x0#4 ∧
    (resetBlock s).cpu.dt = 0x00#8 ∧ (resetBlock s).cpu.st = 0x00#8 ∧
    (∀ a, (resetBlock s).readByte a = s.readByte a) ∧ (resetBlock s).screen = s.screen ∧
    (resetBlock s).params = s.params

/-- "calling reset yields a CpuState bit-identical to a freshly constructed one" (R20): after `Reset` the CpuState is that of
the machine right after power-on, whose every field is zero. -/
def Obligations.ResetEqualsPowerOn : Prop :=
  (∀ s : State, (resetBlock s).cpu = State.reset.cpu) ∧
  (∀ j : Nibble, State.reset.getV j = 0x00#8 ∧ State.reset.stackEntry j = 0x0000#16 ∧ State.reset.key j = false) ∧
  State.reset.cpu.i = 0x0000#16 ∧ State.reset.cpu.pc = 0x0000#16 ∧ State.reset.cpu.sp = 0x0#4 ∧
  State.reset.cpu.dt = 0x00#8 ∧ State.reset.cpu.st = 0x00#8

/-! ## The whole machine -/

/-- Every step keeps the invariant: the parameters within R3, memory canonical and inside MEM_LEN, `call_stack[0]` still 0
(R19, R22). -/
def Obligations.StepKeepsInvariant : Prop :=
  ∀ s t : State, Inv s → step s = .next t → Inv t

/-- The invariant holds right after power-on. -/
def Obligations.ResetMeetsInvariant : Prop := Inv State.reset

/-- "only `CALL`, `RET` and `Reset` change" `sp` (R14), and no instruction but `CALL` writes the call stack (R15). -/
def Obligations.OnlyCallAndRetMoveStack : Prop :=
  ∀ (i : Instr) (s t : State), exec i s = .next t →
    ((∀ nnn, i ≠ .call nnn) → (∀ j, t.stackEntry j = s.stackEntry j) ∧ (i ≠ .ret → t.cpu.sp = s.cpu.sp))

/-- No instruction writes the keypad (R17) or the parameters, constants of a run (R3, log 3); only `LD DT` writes `DT`, only
`LD ST` writes `ST` (R16); only `LD I`, `ADD I` and `LD F` write `I` (R12); only `LD B` and `LD [I]` write memory (R22, R80,
R81); only `CLS` and `DRW` change the screen (R83 to R85); only `RND` reads the `rnd` port (R48, R75). That the count of draws
(log 5) and the driving loop's policy (log 1), schedule and continuation (log 2) are not touched is about the model's own
fields, no rule of the spec. -/
def Obligations.EachPieceHasItsWriters : Prop :=
  ∀ (i : Instr) (s t : State), exec i s = .next t →
    (∀ k, t.key k = s.key k) ∧ t.params = s.params ∧ t.driver.schedule = s.driver.schedule ∧
    t.driver.policy = s.driver.policy ∧ t.driver.afterwards = s.driver.afterwards ∧
    ((∀ x, i ≠ .ldDtVx x) → t.cpu.dt = s.cpu.dt) ∧ ((∀ x, i ≠ .ldStVx x) → t.cpu.st = s.cpu.st) ∧
    ((∀ nnn, i ≠ .ldI nnn) → (∀ x, i ≠ .addI x) → (∀ x, i ≠ .ldF x) → t.cpu.i = s.cpu.i) ∧
    ((∀ x, i ≠ .ldB x) → (∀ x, i ≠ .ldMemVx x) → ∀ a, t.readByte a = s.readByte a) ∧
    (i ≠ .cls → (∀ x y n, i ≠ .drw x y n) → t.screen = s.screen) ∧
    ((∀ x kk, i ≠ .rnd x kk) → t.rndReads = s.rndReads)

/-- Every instruction leaves every general register but its destination, and `V[15]` where it writes the flag, as it was
(R10, R11). -/
def Obligations.OnlyDestinationRegistersChange : Prop :=
  ∀ (i : Instr) (s t : State), exec i s = .next t → ∀ j, j ∉ destRegs i → t.getV j = s.getV j

/-- After a fetched instruction `pc` is at most MEM_LEN + 2, for a MEM_LEN that leaves no wrap reachable (R13: "after fetching
the last word of memory `pc` equals `MEM_LEN`, and a skip can take it to `MEM_LEN + 2`"). -/
def Obligations.PcStaysWithinTwoOfMemory : Prop :=
  ∀ s t : State, s.params.memLen < 65534 → StepsOnly s → s.cpu.pc.toNat + 1 < s.params.memLen →
    step s = .next t → t.cpu.pc.toNat ≤ s.params.memLen + 2

/-- "In a parked state every further `Step` leaves `CpuState`, memory and screen unchanged" (R120 (b)): nothing but the
recorded answer, which is `Ok`, and however many steps follow. -/
def Obligations.ParkedStateStays : Prop :=
  ∀ s : State, Parked s → StepsOnly s → ∀ k, runFor (k + 1) s = .next (s.setAnswer .ok)

end
end

