-- ==== Sys2Proof/Laws/Encoding.lean ====
section
/-! SUPPORT. The fields of the three word layouts (30_encoding.md R36, R37), and a word as the concatenation of its
fields. -/

namespace Sys2Proof

/-! ## Bits of a layout -/

theorem getLsbD_formatA (op : Nibble) (nnn : Imm12) (i : Nat) :
    (formatA op nnn).getLsbD i = if i < 12 then nnn.getLsbD i else op.getLsbD (i - 12) :=
  BitVec.getLsbD_append (x := op) (y := nnn) (i := i)

theorem getLsbD_formatXK (op x : Nibble) (kk : Byte) (i : Nat) :
    (formatXK op x kk).getLsbD i =
      if i < 8 then kk.getLsbD i else if i < 12 then x.getLsbD (i - 8) else op.getLsbD (i - 12) := by
  refine (BitVec.getLsbD_append (x := op ++ x) (y := kk) (i := i)).trans ?_
  rw [BitVec.getLsbD_append, Nat.sub_sub]
  by_cases h1 : i < 8
  · simp [h1]
  · by_cases h2 : i < 12
    · simp [h1, h2, show i - 8 < 4 by omega]
    · simp [h1, h2, show ¬ i - 8 < 4 by omega]

theorem getLsbD_formatXYN (op x y n : Nibble) (i : Nat) :
    (formatXYN op x y n).getLsbD i =
      if i < 4 then n.getLsbD i else if i < 8 then y.getLsbD (i - 4)
      else if i < 12 then x.getLsbD (i - 8) else op.getLsbD (i - 12) := by
  refine (BitVec.getLsbD_append (x := op ++ x ++ y) (y := n) (i := i)).trans ?_
  rw [BitVec.getLsbD_append, BitVec.getLsbD_append, Nat.sub_sub, Nat.sub_sub]
  by_cases h1 : i < 4
  · simp [h1]
  · by_cases h2 : i < 8
    · simp [h1, h2, show i - 4 < 4 by omega]
    · by_cases h3 : i < 12
      · simp [h1, h2, h3, show ¬ i - 4 < 4 by omega, show i - 8 < 4 by omega]
      · simp [h1, h2, h3, show ¬ i - 4 < 4 by omega, show ¬ i - 8 < 4 by omega]

theorem getLsbD_wordOfBytes (hi lo : Byte) (i : Nat) :
    (wordOfBytes hi lo).getLsbD i = if i < 8 then lo.getLsbD i else hi.getLsbD (i - 8) :=
  BitVec.getLsbD_append (x := hi) (y := lo) (i := i)

theorem getLsbD_opField (w : Word) (i : Nat) : (opField w).getLsbD i = (decide (i < 4) && w.getLsbD (12 + i)) := by
  simp [opField]
theorem getLsbD_xField (w : Word) (i : Nat) : (xField w).getLsbD i = (decide (i < 4) && w.getLsbD (8 + i)) := by
  simp [xField]
theorem getLsbD_yField (w : Word) (i : Nat) : (yField w).getLsbD i = (decide (i < 4) && w.getLsbD (4 + i)) := by
  simp [yField]
theorem getLsbD_nField (w : Word) (i : Nat) : (nField w).getLsbD i = (decide (i < 4) && w.getLsbD i) := by
  simp [nField]
theorem getLsbD_kkField (w : Word) (i : Nat) : (kkField w).getLsbD i = (decide (i < 8) && w.getLsbD i) := by
  simp [kkField]
theorem getLsbD_nnnField (w : Word) (i : Nat) : (nnnField w).getLsbD i = (decide (i < 12) && w.getLsbD i) := by
  simp [nnnField]
theorem getLsbD_highByte (w : Word) (i : Nat) : (highByte w).getLsbD i = (decide (i < 8) && w.getLsbD (8 + i)) := by
  simp [highByte]
theorem getLsbD_lowByte (w : Word) (i : Nat) : (lowByte w).getLsbD i = (decide (i < 8) && w.getLsbD i) := by
  simp [lowByte]

/-! ## A word is its fields -/

/-- A word is its op field and its nnn field (R36). -/
theorem formatA_fields (w : Word) : formatA (opField w) (nnnField w) = w := by
  apply BitVec.eq_of_getLsbD_eq
  intro i hi
  rw [getLsbD_formatA, getLsbD_opField, getLsbD_nnnField]
  by_cases h : i < 12
  · simp [h]
  · simp [h, show i - 12 < 4 by omega, show 12 + (i - 12) = i by omega]

/-- A word is its op, x and kk fields (R36). -/
theorem formatXK_fields (w : Word) : formatXK (opField w) (xField w) (kkField w) = w := by
  apply BitVec.eq_of_getLsbD_eq
  intro i hi
  rw [getLsbD_formatXK, getLsbD_opField, getLsbD_xField, getLsbD_kkField]
  by_cases h1 : i < 8
  · simp [h1]
  · by_cases h2 : i < 12
    · simp [h1, h2, show i - 8 < 4 by omega, show 8 + (i - 8) = i by omega]
    · simp [h1, h2, show i - 12 < 4 by omega, show 12 + (i - 12) = i by omega]

/-- A word is its op, x, y and n fields (R36). -/
theorem formatXYN_fields (w : Word) : formatXYN (opField w) (xField w) (yField w) (nField w) = w := by
  apply BitVec.eq_of_getLsbD_eq
  intro i hi
  rw [getLsbD_formatXYN, getLsbD_opField, getLsbD_xField, getLsbD_yField, getLsbD_nField]
  by_cases h1 : i < 4
  · simp [h1]
  · by_cases h2 : i < 8
    · simp [h1, h2, show i - 4 < 4 by omega, show 4 + (i - 4) = i by omega]
    · by_cases h3 : i < 12
      · simp [h1, h2, h3, show i - 8 < 4 by omega, show 8 + (i - 8) = i by omega]
      · simp [h1, h2, h3, show i - 12 < 4 by omega, show 12 + (i - 12) = i by omega]

/-- A word is its high and low byte (20_memory.md R26). -/
@[simp] theorem wordOfBytes_bytes (w : Word) : wordOfBytes (highByte w) (lowByte w) = w := by
  apply BitVec.eq_of_getLsbD_eq
  intro i hi
  rw [getLsbD_wordOfBytes, getLsbD_highByte, getLsbD_lowByte]
  by_cases h : i < 8
  · simp [h]
  · simp [h, show i - 8 < 8 by omega, show 8 + (i - 8) = i by omega]

/-- The number a fetched word is (40_cycle.md R45: `(hi << 8) | lo`). -/
theorem toNat_wordOfBytes (hi lo : Byte) : (wordOfBytes hi lo).toNat = 256 * hi.toNat + lo.toNat := by
  have h : (hi ++ lo).toNat = hi.toNat <<< 8 ||| lo.toNat := BitVec.toNat_append hi lo
  rw [← Nat.shiftLeft_add_eq_or_of_lt lo.isLt, Nat.shiftLeft_eq] at h
  show (hi ++ lo).toNat = _
  omega

/-- A format A word as a number (R37). -/
theorem toNat_formatA (op : Nibble) (nnn : Imm12) : (formatA op nnn).toNat = op.toNat * 4096 + nnn.toNat := by
  have h : (formatA op nnn).toNat = op.toNat <<< 12 ||| nnn.toNat := BitVec.toNat_append op nnn
  rw [h, ← Nat.shiftLeft_add_eq_or_of_lt nnn.isLt, Nat.shiftLeft_eq]

/-- The word of `SYS nnn` is `zext_16(nnn)` (40_cycle.md R51). -/
theorem formatA_zero (nnn : Imm12) : formatA 0x0#4 nnn = nnn.setWidth 16 := by
  apply BitVec.eq_of_getLsbD_eq
  intro i hi
  rw [getLsbD_formatA, BitVec.getLsbD_setWidth]
  by_cases h : i < 12
  · simp [h, hi]
  · simp [h, BitVec.getLsbD_of_ge nnn i (by omega)]

/-! ## The fields of a layout -/

section Fields
variable (op x y n : Nibble) (kk : Byte) (nnn : Imm12)

@[simp] theorem opField_formatA : opField (formatA op nnn) = op := by
  apply BitVec.eq_of_getLsbD_eq
  intro i hi
  rw [getLsbD_opField, getLsbD_formatA]
  simp [hi]

@[simp] theorem nnnField_formatA : nnnField (formatA op nnn) = nnn := by
  apply BitVec.eq_of_getLsbD_eq
  intro i hi
  rw [getLsbD_nnnField, getLsbD_formatA]
  simp [hi]

@[simp] theorem opField_formatXK : opField (formatXK op x kk) = op := by
  apply BitVec.eq_of_getLsbD_eq
  intro i hi
  rw [getLsbD_opField, getLsbD_formatXK]
  simp [hi, show ¬ 12 + i < 8 by omega]

@[simp] theorem xField_formatXK : xField (formatXK op x kk) = x := by
  apply BitVec.eq_of_getLsbD_eq
  intro i hi
  rw [getLsbD_xField, getLsbD_formatXK]
  simp [hi, show 8 + i < 12 by omega]

@[simp] theorem kkField_formatXK : kkField (formatXK op x kk) = kk := by
  apply BitVec.eq_of_getLsbD_eq
  intro i hi
  rw [getLsbD_kkField, getLsbD_formatXK]
  simp [hi]

@[simp] theorem opField_formatXYN : opField (formatXYN op x y n) = op := by
  apply BitVec.eq_of_getLsbD_eq
  intro i hi
  rw [getLsbD_opField, getLsbD_formatXYN]
  simp [hi, show ¬ 12 + i < 4 by omega, show ¬ 12 + i < 8 by omega]

@[simp] theorem xField_formatXYN : xField (formatXYN op x y n) = x := by
  apply BitVec.eq_of_getLsbD_eq
  intro i hi
  rw [getLsbD_xField, getLsbD_formatXYN]
  simp [hi, show ¬ 8 + i < 4 by omega, show 8 + i < 12 by omega]

@[simp] theorem yField_formatXYN : yField (formatXYN op x y n) = y := by
  apply BitVec.eq_of_getLsbD_eq
  intro i hi
  rw [getLsbD_yField, getLsbD_formatXYN]
  simp [hi, show 4 + i < 8 by omega]

@[simp] theorem nField_formatXYN : nField (formatXYN op x y n) = n := by
  apply BitVec.eq_of_getLsbD_eq
  intro i hi
  rw [getLsbD_nField, getLsbD_formatXYN]
  simp [hi]

end Fields

end Sys2Proof
end

