-- ==== Sys2Proof/Laws/Memory.lean ====
section
/-! SUPPORT. The laws of memory: a read after a write, bytes in sequence, and the canonical form every operation keeps. -/

namespace Sys2Proof.Machine

/-! ## One byte -/

theorem Memory.read_insert_same (m : Memory) (a : Nat) (b : Byte) (h : ∀ c ∈ m, c.1 ≠ a) :
    Memory.read (Memory.insert a b m) a = b := by
  induction m with
  | nil => simp [Memory.insert, Memory.read]
  | cons c rest ih =>
    have hc : c.1 ≠ a := h c (by simp)
    have hr : ∀ d ∈ rest, d.1 ≠ a := fun d hd => h d (by simp [hd])
    by_cases hlt : a < c.1
    · simp [Memory.insert, Memory.read, hlt]
    · simp [Memory.insert, Memory.read, hlt, hc, ih hr]

theorem Memory.read_insert_other (m : Memory) (a a' : Nat) (b : Byte) (h : a' ≠ a) :
    Memory.read (Memory.insert a b m) a' = Memory.read m a' := by
  induction m with
  | nil => simp [Memory.insert, Memory.read, Ne.symm h]
  | cons c rest ih =>
    by_cases hlt : a < c.1
    · simp [Memory.insert, Memory.read, hlt, Ne.symm h]
    · simp [Memory.insert, Memory.read, hlt, ih]

theorem Memory.read_filter_same (m : Memory) (a : Nat) :
    Memory.read (m.filter (fun c => c.1 ≠ a)) a = Memory.unlisted := by
  induction m with
  | nil => rfl
  | cons c rest ih =>
    by_cases hc : c.1 = a
    · simpa [List.filter_cons, hc] using ih
    · simpa [List.filter_cons, hc, Memory.read] using ih

theorem Memory.read_filter_other (m : Memory) (a a' : Nat) (h : a' ≠ a) :
    Memory.read (m.filter (fun c => c.1 ≠ a)) a' = Memory.read m a' := by
  induction m with
  | nil => rfl
  | cons c rest ih =>
    by_cases hc : c.1 = a
    · have hne : c.1 ≠ a' := fun e => h (e.symm.trans hc)
      simpa [List.filter_cons, hc, Memory.read, Ne.symm h] using ih
    · simp only [List.filter_cons, hc, not_false_eq_true, decide_true, ↓reduceIte, Memory.read, ne_eq]
      simpa using congrArg (fun v => if c.1 = a' then c.2 else v) ih

/-- A read after a write to the same place gives the byte written (R24). -/
@[simp] theorem Memory.read_write_same (m : Memory) (a : Nat) (b : Byte) :
    Memory.read (Memory.write m a b) a = b := by
  by_cases hb : b = Memory.unlisted
  · simpa [Memory.write, hb] using Memory.read_filter_same m a
  · simp only [Memory.write, hb, ↓reduceIte]
    exact Memory.read_insert_same _ _ _ (by simp)

/-- A write leaves every other place alone (R24). -/
theorem Memory.read_write_other (m : Memory) (a a' : Nat) (b : Byte) (h : a' ≠ a) :
    Memory.read (Memory.write m a b) a' = Memory.read m a' := by
  by_cases hb : b = Memory.unlisted
  · simpa [Memory.write, hb] using Memory.read_filter_other m a a' h
  · simp only [Memory.write, hb, ↓reduceIte]
    rw [Memory.read_insert_other _ _ _ _ h]
    exact Memory.read_filter_other m a a' h

theorem Memory.read_write (m : Memory) (a a' : Nat) (b : Byte) :
    Memory.read (Memory.write m a b) a' = if a' = a then b else Memory.read m a' := by
  by_cases h : a' = a
  · simp [h]
  · simp [h, Memory.read_write_other]

/-! ## Bytes in sequence -/

@[simp] theorem Memory.length_readBytes (m : Memory) (a n : Nat) : (Memory.readBytes m a n).length = n := by
  induction n generalizing a with
  | zero => rfl
  | succ n ih => simp [Memory.readBytes, ih]

/-- Byte `k` of a read from `a` upward is the byte at `a + k` (R27). -/
theorem Memory.getElem?_readBytes (m : Memory) (a n k : Nat) :
    (Memory.readBytes m a n)[k]? = if k < n then some (Memory.read m (a + k)) else none := by
  induction n generalizing a k with
  | zero => simp [Memory.readBytes]
  | succ n ih =>
    cases k with
    | zero => simp [Memory.readBytes]
    | succ k => simp [Memory.readBytes, ih, show a + 1 + k = a + (k + 1) by omega]

/-- After bytes are written from `a` upward, each reads back, and every other place is as before (R24, R27). -/
theorem Memory.read_writeBytes (m : Memory) (a : Nat) (bs : List Byte) (c : Nat) :
    Memory.read (Memory.writeBytes m a bs) c =
      if h : a ≤ c ∧ c - a < bs.length then bs[c - a]'h.2 else Memory.read m c := by
  induction bs generalizing m a with
  | nil => simp [Memory.writeBytes]
  | cons b rest ih =>
    rw [Memory.writeBytes, ih]
    by_cases hlt : a + 1 ≤ c ∧ c - (a + 1) < rest.length
    · have h2 : a ≤ c ∧ c - a < (b :: rest).length := by simp only [List.length_cons]; omega
      have e : c - a = (c - (a + 1)) + 1 := by omega
      rw [dif_pos hlt, dif_pos h2]
      simp only [e, List.getElem_cons_succ]
    · rw [dif_neg hlt, Memory.read_write]
      by_cases hc : c = a
      · subst hc; simp
      · have h2 : ¬ (a ≤ c ∧ c - a < (b :: rest).length) := by simp only [List.length_cons]; omega
        rw [dif_neg h2, if_neg hc]

/-! ## The canonical form -/

theorem Memory.mem_insert (m : Memory) (a : Nat) (b : Byte) (c : Host.Cell) :
    c ∈ Memory.insert a b m ↔ c = (a, b) ∨ c ∈ m := by
  induction m with
  | nil => simp [Memory.insert]
  | cons d rest ih =>
    by_cases hlt : a < d.1
    · simp [Memory.insert, hlt]
    · simp [Memory.insert, hlt, ih, or_left_comm]

theorem Memory.pairwise_insert (m : Memory) (a : Nat) (b : Byte)
    (hm : m.Pairwise (fun c d => c.1 < d.1)) (h : ∀ c ∈ m, c.1 ≠ a) :
    (Memory.insert a b m).Pairwise (fun c d => c.1 < d.1) := by
  induction m with
  | nil => simp [Memory.insert]
  | cons d rest ih =>
    obtain ⟨hd, hr⟩ := List.pairwise_cons.mp hm
    have hne : d.1 ≠ a := h d (by simp)
    by_cases hlt : a < d.1
    · simp only [Memory.insert, hlt, ↓reduceIte]
      refine List.pairwise_cons.mpr ⟨?_, hm⟩
      intro c hc
      rcases List.mem_cons.mp hc with rfl | hc
      · exact hlt
      · exact Nat.lt_trans hlt (hd c hc)
    · simp only [Memory.insert, hlt, ↓reduceIte]
      refine List.pairwise_cons.mpr ⟨?_, ih hr (fun c hc => h c (by simp [hc]))⟩
      intro c hc
      rcases (Memory.mem_insert _ _ _ _).mp hc with rfl | hc
      · show d.1 < a; omega
      · exact hd c hc

/-- Every write keeps the canonical form. -/
theorem Memory.wf_write (m : Memory) (a : Nat) (b : Byte) (h : Memory.wf m) : Memory.wf (Memory.write m a b) := by
  obtain ⟨hp, hu⟩ := h
  have hp' : (m.filter (fun c => c.1 ≠ a)).Pairwise (fun c d => c.1 < d.1) := hp.filter _
  have hu' : ∀ c ∈ m.filter (fun c => c.1 ≠ a), c.2 ≠ Memory.unlisted := fun c hc => hu c (List.mem_filter.mp hc).1
  by_cases hb : b = Memory.unlisted
  · simpa only [Memory.write, hb, ↓reduceIte] using And.intro hp' hu'
  · simp only [Memory.write, hb, ↓reduceIte]
    refine ⟨Memory.pairwise_insert _ _ _ hp' (by simp), fun c hc => ?_⟩
    rcases (Memory.mem_insert _ _ _ _).mp hc with rfl | hc
    · exact hb
    · exact hu' c hc

theorem Memory.wf_writeBytes (m : Memory) (a : Nat) (bs : List Byte) (h : Memory.wf m) :
    Memory.wf (Memory.writeBytes m a bs) := by
  induction bs generalizing m a with
  | nil => exact h
  | cons b rest ih => exact ih _ _ (Memory.wf_write m a b h)

/-- A write lists no address but its own and those listed before. -/
theorem Memory.mem_write (m : Memory) (a : Nat) (b : Byte) (c : Host.Cell) (h : c ∈ Memory.write m a b) :
    c.1 = a ∨ c ∈ m := by
  by_cases hb : b = Memory.unlisted
  · simp only [Memory.write, hb, ↓reduceIte] at h
    exact .inr (List.mem_filter.mp h).1
  · simp only [Memory.write, hb, ↓reduceIte] at h
    rcases (Memory.mem_insert _ _ _ _).mp h with rfl | h
    · exact .inl rfl
    · exact .inr (List.mem_filter.mp h).1

/-- Bytes written below a bound keep every listed address below it. -/
theorem Memory.inside_writeBytes (m : Memory) (a limit : Nat) (bs : List Byte)
    (h : ∀ c ∈ m, c.1 < limit) (hl : bs = [] ∨ a + bs.length ≤ limit) :
    ∀ c ∈ Memory.writeBytes m a bs, c.1 < limit := by
  induction bs generalizing m a with
  | nil => exact h
  | cons b rest ih =>
    have hl' : a + (rest.length + 1) ≤ limit := by simpa using hl
    refine ih _ _ (fun c hc => ?_) (.inr (by omega))
    rcases Memory.mem_write _ _ _ _ hc with e | hc
    · omega
    · exact h c hc

end Sys2Proof.Machine
end

