-- ==== Sys2Proof/Laws/State.lean ====
section
/-! SUPPORT. One lemma per field per update of State, true by rfl, so that no proof unfolds a record update. -/

namespace Sys2Proof.Machine

variable (s : State)

/-! ## setV -/

@[simp] theorem State.setV_cpu_v (x : Nibble) (b : Byte) : (s.setV x b).cpu.v = s.cpu.v.set x.toNat b x.isLt := rfl
@[simp] theorem State.setV_cpu_i (x : Nibble) (b : Byte) : (s.setV x b).cpu.i = s.cpu.i := rfl
@[simp] theorem State.setV_cpu_pc (x : Nibble) (b : Byte) : (s.setV x b).cpu.pc = s.cpu.pc := rfl
@[simp] theorem State.setV_cpu_sp (x : Nibble) (b : Byte) : (s.setV x b).cpu.sp = s.cpu.sp := rfl
@[simp] theorem State.setV_cpu_callStack (x : Nibble) (b : Byte) : (s.setV x b).cpu.callStack = s.cpu.callStack := rfl
@[simp] theorem State.setV_cpu_dt (x : Nibble) (b : Byte) : (s.setV x b).cpu.dt = s.cpu.dt := rfl
@[simp] theorem State.setV_cpu_st (x : Nibble) (b : Byte) : (s.setV x b).cpu.st = s.cpu.st := rfl
@[simp] theorem State.setV_cpu_keypad (x : Nibble) (b : Byte) : (s.setV x b).cpu.keypad = s.cpu.keypad := rfl
@[simp] theorem State.setV_mem (x : Nibble) (b : Byte) : (s.setV x b).mem = s.mem := rfl
@[simp] theorem State.setV_screen (x : Nibble) (b : Byte) : (s.setV x b).screen = s.screen := rfl
@[simp] theorem State.setV_params (x : Nibble) (b : Byte) : (s.setV x b).params = s.params := rfl
@[simp] theorem State.setV_rndReads (x : Nibble) (b : Byte) : (s.setV x b).rndReads = s.rndReads := rfl
@[simp] theorem State.setV_driver_schedule (x : Nibble) (b : Byte) : (s.setV x b).driver.schedule = s.driver.schedule := rfl
@[simp] theorem State.setV_driver_policy (x : Nibble) (b : Byte) : (s.setV x b).driver.policy = s.driver.policy := rfl
@[simp] theorem State.setV_driver_afterwards (x : Nibble) (b : Byte) : (s.setV x b).driver.afterwards = s.driver.afterwards := rfl
@[simp] theorem State.setV_driver_answer (x : Nibble) (b : Byte) : (s.setV x b).driver.answer = s.driver.answer := rfl
@[simp] theorem State.setV_driver (x : Nibble) (b : Byte) : (s.setV x b).driver = s.driver := rfl
@[simp] theorem State.setV_stackEntry (x : Nibble) (b : Byte) (q : Nibble) : (s.setV x b).stackEntry q = s.stackEntry q := rfl
@[simp] theorem State.setV_key (x : Nibble) (b : Byte) (q : Nibble) : (s.setV x b).key q = s.key q := rfl
@[simp] theorem State.setV_readByte (x : Nibble) (b : Byte) (q : Nat) : (s.setV x b).readByte q = s.readByte q := rfl
@[simp] theorem State.setV_readBytes (x : Nibble) (b : Byte) (q len : Nat) : (s.setV x b).readBytes q len = s.readBytes q len := rfl

/-! ## setI -/

@[simp] theorem State.setI_cpu_v (w : Word) : (s.setI w).cpu.v = s.cpu.v := rfl
@[simp] theorem State.setI_cpu_i (w : Word) : (s.setI w).cpu.i = w := rfl
@[simp] theorem State.setI_cpu_pc (w : Word) : (s.setI w).cpu.pc = s.cpu.pc := rfl
@[simp] theorem State.setI_cpu_sp (w : Word) : (s.setI w).cpu.sp = s.cpu.sp := rfl
@[simp] theorem State.setI_cpu_callStack (w : Word) : (s.setI w).cpu.callStack = s.cpu.callStack := rfl
@[simp] theorem State.setI_cpu_dt (w : Word) : (s.setI w).cpu.dt = s.cpu.dt := rfl
@[simp] theorem State.setI_cpu_st (w : Word) : (s.setI w).cpu.st = s.cpu.st := rfl
@[simp] theorem State.setI_cpu_keypad (w : Word) : (s.setI w).cpu.keypad = s.cpu.keypad := rfl
@[simp] theorem State.setI_mem (w : Word) : (s.setI w).mem = s.mem := rfl
@[simp] theorem State.setI_screen (w : Word) : (s.setI w).screen = s.screen := rfl
@[simp] theorem State.setI_params (w : Word) : (s.setI w).params = s.params := rfl
@[simp] theorem State.setI_rndReads (w : Word) : (s.setI w).rndReads = s.rndReads := rfl
@[simp] theorem State.setI_driver_schedule (w : Word) : (s.setI w).driver.schedule = s.driver.schedule := rfl
@[simp] theorem State.setI_driver_policy (w : Word) : (s.setI w).driver.policy = s.driver.policy := rfl
@[simp] theorem State.setI_driver_afterwards (w : Word) : (s.setI w).driver.afterwards = s.driver.afterwards := rfl
@[simp] theorem State.setI_driver_answer (w : Word) : (s.setI w).driver.answer = s.driver.answer := rfl
@[simp] theorem State.setI_driver (w : Word) : (s.setI w).driver = s.driver := rfl
@[simp] theorem State.setI_getV (w : Word) (q : Nibble) : (s.setI w).getV q = s.getV q := rfl
@[simp] theorem State.setI_stackEntry (w : Word) (q : Nibble) : (s.setI w).stackEntry q = s.stackEntry q := rfl
@[simp] theorem State.setI_key (w : Word) (q : Nibble) : (s.setI w).key q = s.key q := rfl
@[simp] theorem State.setI_readByte (w : Word) (q : Nat) : (s.setI w).readByte q = s.readByte q := rfl
@[simp] theorem State.setI_readBytes (w : Word) (q len : Nat) : (s.setI w).readBytes q len = s.readBytes q len := rfl

/-! ## setPc -/

@[simp] theorem State.setPc_cpu_v (w : Word) : (s.setPc w).cpu.v = s.cpu.v := rfl
@[simp] theorem State.setPc_cpu_i (w : Word) : (s.setPc w).cpu.i = s.cpu.i := rfl
@[simp] theorem State.setPc_cpu_pc (w : Word) : (s.setPc w).cpu.pc = w := rfl
@[simp] theorem State.setPc_cpu_sp (w : Word) : (s.setPc w).cpu.sp = s.cpu.sp := rfl
@[simp] theorem State.setPc_cpu_callStack (w : Word) : (s.setPc w).cpu.callStack = s.cpu.callStack := rfl
@[simp] theorem State.setPc_cpu_dt (w : Word) : (s.setPc w).cpu.dt = s.cpu.dt := rfl
@[simp] theorem State.setPc_cpu_st (w : Word) : (s.setPc w).cpu.st = s.cpu.st := rfl
@[simp] theorem State.setPc_cpu_keypad (w : Word) : (s.setPc w).cpu.keypad = s.cpu.keypad := rfl
@[simp] theorem State.setPc_mem (w : Word) : (s.setPc w).mem = s.mem := rfl
@[simp] theorem State.setPc_screen (w : Word) : (s.setPc w).screen = s.screen := rfl
@[simp] theorem State.setPc_params (w : Word) : (s.setPc w).params = s.params := rfl
@[simp] theorem State.setPc_rndReads (w : Word) : (s.setPc w).rndReads = s.rndReads := rfl
@[simp] theorem State.setPc_driver_schedule (w : Word) : (s.setPc w).driver.schedule = s.driver.schedule := rfl
@[simp] theorem State.setPc_driver_policy (w : Word) : (s.setPc w).driver.policy = s.driver.policy := rfl
@[simp] theorem State.setPc_driver_afterwards (w : Word) : (s.setPc w).driver.afterwards = s.driver.afterwards := rfl
@[simp] theorem State.setPc_driver_answer (w : Word) : (s.setPc w).driver.answer = s.driver.answer := rfl
@[simp] theorem State.setPc_driver (w : Word) : (s.setPc w).driver = s.driver := rfl
@[simp] theorem State.setPc_getV (w : Word) (q : Nibble) : (s.setPc w).getV q = s.getV q := rfl
@[simp] theorem State.setPc_stackEntry (w : Word) (q : Nibble) : (s.setPc w).stackEntry q = s.stackEntry q := rfl
@[simp] theorem State.setPc_key (w : Word) (q : Nibble) : (s.setPc w).key q = s.key q := rfl
@[simp] theorem State.setPc_readByte (w : Word) (q : Nat) : (s.setPc w).readByte q = s.readByte q := rfl
@[simp] theorem State.setPc_readBytes (w : Word) (q len : Nat) : (s.setPc w).readBytes q len = s.readBytes q len := rfl

/-! ## advancePc -/

@[simp] theorem State.advancePc_cpu_v : (s.advancePc).cpu.v = s.cpu.v := rfl
@[simp] theorem State.advancePc_cpu_i : (s.advancePc).cpu.i = s.cpu.i := rfl
@[simp] theorem State.advancePc_cpu_pc : (s.advancePc).cpu.pc = s.cpu.pc + 2 := rfl
@[simp] theorem State.advancePc_cpu_sp : (s.advancePc).cpu.sp = s.cpu.sp := rfl
@[simp] theorem State.advancePc_cpu_callStack : (s.advancePc).cpu.callStack = s.cpu.callStack := rfl
@[simp] theorem State.advancePc_cpu_dt : (s.advancePc).cpu.dt = s.cpu.dt := rfl
@[simp] theorem State.advancePc_cpu_st : (s.advancePc).cpu.st = s.cpu.st := rfl
@[simp] theorem State.advancePc_cpu_keypad : (s.advancePc).cpu.keypad = s.cpu.keypad := rfl
@[simp] theorem State.advancePc_mem : (s.advancePc).mem = s.mem := rfl
@[simp] theorem State.advancePc_screen : (s.advancePc).screen = s.screen := rfl
@[simp] theorem State.advancePc_params : (s.advancePc).params = s.params := rfl
@[simp] theorem State.advancePc_rndReads : (s.advancePc).rndReads = s.rndReads := rfl
@[simp] theorem State.advancePc_driver_schedule : (s.advancePc).driver.schedule = s.driver.schedule := rfl
@[simp] theorem State.advancePc_driver_policy : (s.advancePc).driver.policy = s.driver.policy := rfl
@[simp] theorem State.advancePc_driver_afterwards : (s.advancePc).driver.afterwards = s.driver.afterwards := rfl
@[simp] theorem State.advancePc_driver_answer : (s.advancePc).driver.answer = s.driver.answer := rfl
@[simp] theorem State.advancePc_driver : (s.advancePc).driver = s.driver := rfl
@[simp] theorem State.advancePc_getV (q : Nibble) : (s.advancePc).getV q = s.getV q := rfl
@[simp] theorem State.advancePc_stackEntry (q : Nibble) : (s.advancePc).stackEntry q = s.stackEntry q := rfl
@[simp] theorem State.advancePc_key (q : Nibble) : (s.advancePc).key q = s.key q := rfl
@[simp] theorem State.advancePc_readByte (q : Nat) : (s.advancePc).readByte q = s.readByte q := rfl
@[simp] theorem State.advancePc_readBytes (q len : Nat) : (s.advancePc).readBytes q len = s.readBytes q len := rfl

/-! ## setSp -/

@[simp] theorem State.setSp_cpu_v (n : Nibble) : (s.setSp n).cpu.v = s.cpu.v := rfl
@[simp] theorem State.setSp_cpu_i (n : Nibble) : (s.setSp n).cpu.i = s.cpu.i := rfl
@[simp] theorem State.setSp_cpu_pc (n : Nibble) : (s.setSp n).cpu.pc = s.cpu.pc := rfl
@[simp] theorem State.setSp_cpu_sp (n : Nibble) : (s.setSp n).cpu.sp = n := rfl
@[simp] theorem State.setSp_cpu_callStack (n : Nibble) : (s.setSp n).cpu.callStack = s.cpu.callStack := rfl
@[simp] theorem State.setSp_cpu_dt (n : Nibble) : (s.setSp n).cpu.dt = s.cpu.dt := rfl
@[simp] theorem State.setSp_cpu_st (n : Nibble) : (s.setSp n).cpu.st = s.cpu.st := rfl
@[simp] theorem State.setSp_cpu_keypad (n : Nibble) : (s.setSp n).cpu.keypad = s.cpu.keypad := rfl
@[simp] theorem State.setSp_mem (n : Nibble) : (s.setSp n).mem = s.mem := rfl
@[simp] theorem State.setSp_screen (n : Nibble) : (s.setSp n).screen = s.screen := rfl
@[simp] theorem State.setSp_params (n : Nibble) : (s.setSp n).params = s.params := rfl
@[simp] theorem State.setSp_rndReads (n : Nibble) : (s.setSp n).rndReads = s.rndReads := rfl
@[simp] theorem State.setSp_driver_schedule (n : Nibble) : (s.setSp n).driver.schedule = s.driver.schedule := rfl
@[simp] theorem State.setSp_driver_policy (n : Nibble) : (s.setSp n).driver.policy = s.driver.policy := rfl
@[simp] theorem State.setSp_driver_afterwards (n : Nibble) : (s.setSp n).driver.afterwards = s.driver.afterwards := rfl
@[simp] theorem State.setSp_driver_answer (n : Nibble) : (s.setSp n).driver.answer = s.driver.answer := rfl
@[simp] theorem State.setSp_driver (n : Nibble) : (s.setSp n).driver = s.driver := rfl
@[simp] theorem State.setSp_getV (n : Nibble) (q : Nibble) : (s.setSp n).getV q = s.getV q := rfl
@[simp] theorem State.setSp_stackEntry (n : Nibble) (q : Nibble) : (s.setSp n).stackEntry q = s.stackEntry q := rfl
@[simp] theorem State.setSp_key (n : Nibble) (q : Nibble) : (s.setSp n).key q = s.key q := rfl
@[simp] theorem State.setSp_readByte (n : Nibble) (q : Nat) : (s.setSp n).readByte q = s.readByte q := rfl
@[simp] theorem State.setSp_readBytes (n : Nibble) (q len : Nat) : (s.setSp n).readBytes q len = s.readBytes q len := rfl

/-! ## setStackEntry -/

@[simp] theorem State.setStackEntry_cpu_v (j : Nibble) (w : Word) : (s.setStackEntry j w).cpu.v = s.cpu.v := rfl
@[simp] theorem State.setStackEntry_cpu_i (j : Nibble) (w : Word) : (s.setStackEntry j w).cpu.i = s.cpu.i := rfl
@[simp] theorem State.setStackEntry_cpu_pc (j : Nibble) (w : Word) : (s.setStackEntry j w).cpu.pc = s.cpu.pc := rfl
@[simp] theorem State.setStackEntry_cpu_sp (j : Nibble) (w : Word) : (s.setStackEntry j w).cpu.sp = s.cpu.sp := rfl
@[simp] theorem State.setStackEntry_cpu_callStack (j : Nibble) (w : Word) : (s.setStackEntry j w).cpu.callStack = s.cpu.callStack.set j.toNat w j.isLt := rfl
@[simp] theorem State.setStackEntry_cpu_dt (j : Nibble) (w : Word) : (s.setStackEntry j w).cpu.dt = s.cpu.dt := rfl
@[simp] theorem State.setStackEntry_cpu_st (j : Nibble) (w : Word) : (s.setStackEntry j w).cpu.st = s.cpu.st := rfl
@[simp] theorem State.setStackEntry_cpu_keypad (j : Nibble) (w : Word) : (s.setStackEntry j w).cpu.keypad = s.cpu.keypad := rfl
@[simp] theorem State.setStackEntry_mem (j : Nibble) (w : Word) : (s.setStackEntry j w).mem = s.mem := rfl
@[simp] theorem State.setStackEntry_screen (j : Nibble) (w : Word) : (s.setStackEntry j w).screen = s.screen := rfl
@[simp] theorem State.setStackEntry_params (j : Nibble) (w : Word) : (s.setStackEntry j w).params = s.params := rfl
@[simp] theorem State.setStackEntry_rndReads (j : Nibble) (w : Word) : (s.setStackEntry j w).rndReads = s.rndReads := rfl
@[simp] theorem State.setStackEntry_driver_schedule (j : Nibble) (w : Word) : (s.setStackEntry j w).driver.schedule = s.driver.schedule := rfl
@[simp] theorem State.setStackEntry_driver_policy (j : Nibble) (w : Word) : (s.setStackEntry j w).driver.policy = s.driver.policy := rfl
@[simp] theorem State.setStackEntry_driver_afterwards (j : Nibble) (w : Word) : (s.setStackEntry j w).driver.afterwards = s.driver.afterwards := rfl
@[simp] theorem State.setStackEntry_driver_answer (j : Nibble) (w : Word) : (s.setStackEntry j w).driver.answer = s.driver.answer := rfl
@[simp] theorem State.setStackEntry_driver (j : Nibble) (w : Word) : (s.setStackEntry j w).driver = s.driver := rfl
@[simp] theorem State.setStackEntry_getV (j : Nibble) (w : Word) (q : Nibble) : (s.setStackEntry j w).getV q = s.getV q := rfl
@[simp] theorem State.setStackEntry_key (j : Nibble) (w : Word) (q : Nibble) : (s.setStackEntry j w).key q = s.key q := rfl
@[simp] theorem State.setStackEntry_readByte (j : Nibble) (w : Word) (q : Nat) : (s.setStackEntry j w).readByte q = s.readByte q := rfl
@[simp] theorem State.setStackEntry_readBytes (j : Nibble) (w : Word) (q len : Nat) : (s.setStackEntry j w).readBytes q len = s.readBytes q len := rfl

/-! ## setDt -/

@[simp] theorem State.setDt_cpu_v (b : Byte) : (s.setDt b).cpu.v = s.cpu.v := rfl
@[simp] theorem State.setDt_cpu_i (b : Byte) : (s.setDt b).cpu.i = s.cpu.i := rfl
@[simp] theorem State.setDt_cpu_pc (b : Byte) : (s.setDt b).cpu.pc = s.cpu.pc := rfl
@[simp] theorem State.setDt_cpu_sp (b : Byte) : (s.setDt b).cpu.sp = s.cpu.sp := rfl
@[simp] theorem State.setDt_cpu_callStack (b : Byte) : (s.setDt b).cpu.callStack = s.cpu.callStack := rfl
@[simp] theorem State.setDt_cpu_dt (b : Byte) : (s.setDt b).cpu.dt = b := rfl
@[simp] theorem State.setDt_cpu_st (b : Byte) : (s.setDt b).cpu.st = s.cpu.st := rfl
@[simp] theorem State.setDt_cpu_keypad (b : Byte) : (s.setDt b).cpu.keypad = s.cpu.keypad := rfl
@[simp] theorem State.setDt_mem (b : Byte) : (s.setDt b).mem = s.mem := rfl
@[simp] theorem State.setDt_screen (b : Byte) : (s.setDt b).screen = s.screen := rfl
@[simp] theorem State.setDt_params (b : Byte) : (s.setDt b).params = s.params := rfl
@[simp] theorem State.setDt_rndReads (b : Byte) : (s.setDt b).rndReads = s.rndReads := rfl
@[simp] theorem State.setDt_driver_schedule (b : Byte) : (s.setDt b).driver.schedule = s.driver.schedule := rfl
@[simp] theorem State.setDt_driver_policy (b : Byte) : (s.setDt b).driver.policy = s.driver.policy := rfl
@[simp] theorem State.setDt_driver_afterwards (b : Byte) : (s.setDt b).driver.afterwards = s.driver.afterwards := rfl
@[simp] theorem State.setDt_driver_answer (b : Byte) : (s.setDt b).driver.answer = s.driver.answer := rfl
@[simp] theorem State.setDt_driver (b : Byte) : (s.setDt b).driver = s.driver := rfl
@[simp] theorem State.setDt_getV (b : Byte) (q : Nibble) : (s.setDt b).getV q = s.getV q := rfl
@[simp] theorem State.setDt_stackEntry (b : Byte) (q : Nibble) : (s.setDt b).stackEntry q = s.stackEntry q := rfl
@[simp] theorem State.setDt_key (b : Byte) (q : Nibble) : (s.setDt b).key q = s.key q := rfl
@[simp] theorem State.setDt_readByte (b : Byte) (q : Nat) : (s.setDt b).readByte q = s.readByte q := rfl
@[simp] theorem State.setDt_readBytes (b : Byte) (q len : Nat) : (s.setDt b).readBytes q len = s.readBytes q len := rfl

/-! ## setSt -/

@[simp] theorem State.setSt_cpu_v (b : Byte) : (s.setSt b).cpu.v = s.cpu.v := rfl
@[simp] theorem State.setSt_cpu_i (b : Byte) : (s.setSt b).cpu.i = s.cpu.i := rfl
@[simp] theorem State.setSt_cpu_pc (b : Byte) : (s.setSt b).cpu.pc = s.cpu.pc := rfl
@[simp] theorem State.setSt_cpu_sp (b : Byte) : (s.setSt b).cpu.sp = s.cpu.sp := rfl
@[simp] theorem State.setSt_cpu_callStack (b : Byte) : (s.setSt b).cpu.callStack = s.cpu.callStack := rfl
@[simp] theorem State.setSt_cpu_dt (b : Byte) : (s.setSt b).cpu.dt = s.cpu.dt := rfl
@[simp] theorem State.setSt_cpu_st (b : Byte) : (s.setSt b).cpu.st = b := rfl
@[simp] theorem State.setSt_cpu_keypad (b : Byte) : (s.setSt b).cpu.keypad = s.cpu.keypad := rfl
@[simp] theorem State.setSt_mem (b : Byte) : (s.setSt b).mem = s.mem := rfl
@[simp] theorem State.setSt_screen (b : Byte) : (s.setSt b).screen = s.screen := rfl
@[simp] theorem State.setSt_params (b : Byte) : (s.setSt b).params = s.params := rfl
@[simp] theorem State.setSt_rndReads (b : Byte) : (s.setSt b).rndReads = s.rndReads := rfl
@[simp] theorem State.setSt_driver_schedule (b : Byte) : (s.setSt b).driver.schedule = s.driver.schedule := rfl
@[simp] theorem State.setSt_driver_policy (b : Byte) : (s.setSt b).driver.policy = s.driver.policy := rfl
@[simp] theorem State.setSt_driver_afterwards (b : Byte) : (s.setSt b).driver.afterwards = s.driver.afterwards := rfl
@[simp] theorem State.setSt_driver_answer (b : Byte) : (s.setSt b).driver.answer = s.driver.answer := rfl
@[simp] theorem State.setSt_driver (b : Byte) : (s.setSt b).driver = s.driver := rfl
@[simp] theorem State.setSt_getV (b : Byte) (q : Nibble) : (s.setSt b).getV q = s.getV q := rfl
@[simp] theorem State.setSt_stackEntry (b : Byte) (q : Nibble) : (s.setSt b).stackEntry q = s.stackEntry q := rfl
@[simp] theorem State.setSt_key (b : Byte) (q : Nibble) : (s.setSt b).key q = s.key q := rfl
@[simp] theorem State.setSt_readByte (b : Byte) (q : Nat) : (s.setSt b).readByte q = s.readByte q := rfl
@[simp] theorem State.setSt_readBytes (b : Byte) (q len : Nat) : (s.setSt b).readBytes q len = s.readBytes q len := rfl

/-! ## setKey -/

@[simp] theorem State.setKey_cpu_v (k : Nibble) (p : Bool) : (s.setKey k p).cpu.v = s.cpu.v := rfl
@[simp] theorem State.setKey_cpu_i (k : Nibble) (p : Bool) : (s.setKey k p).cpu.i = s.cpu.i := rfl
@[simp] theorem State.setKey_cpu_pc (k : Nibble) (p : Bool) : (s.setKey k p).cpu.pc = s.cpu.pc := rfl
@[simp] theorem State.setKey_cpu_sp (k : Nibble) (p : Bool) : (s.setKey k p).cpu.sp = s.cpu.sp := rfl
@[simp] theorem State.setKey_cpu_callStack (k : Nibble) (p : Bool) : (s.setKey k p).cpu.callStack = s.cpu.callStack := rfl
@[simp] theorem State.setKey_cpu_dt (k : Nibble) (p : Bool) : (s.setKey k p).cpu.dt = s.cpu.dt := rfl
@[simp] theorem State.setKey_cpu_st (k : Nibble) (p : Bool) : (s.setKey k p).cpu.st = s.cpu.st := rfl
@[simp] theorem State.setKey_cpu_keypad (k : Nibble) (p : Bool) : (s.setKey k p).cpu.keypad = s.cpu.keypad.set k.toNat p k.isLt := rfl
@[simp] theorem State.setKey_mem (k : Nibble) (p : Bool) : (s.setKey k p).mem = s.mem := rfl
@[simp] theorem State.setKey_screen (k : Nibble) (p : Bool) : (s.setKey k p).screen = s.screen := rfl
@[simp] theorem State.setKey_params (k : Nibble) (p : Bool) : (s.setKey k p).params = s.params := rfl
@[simp] theorem State.setKey_rndReads (k : Nibble) (p : Bool) : (s.setKey k p).rndReads = s.rndReads := rfl
@[simp] theorem State.setKey_driver_schedule (k : Nibble) (p : Bool) : (s.setKey k p).driver.schedule = s.driver.schedule := rfl
@[simp] theorem State.setKey_driver_policy (k : Nibble) (p : Bool) : (s.setKey k p).driver.policy = s.driver.policy := rfl
@[simp] theorem State.setKey_driver_afterwards (k : Nibble) (p : Bool) : (s.setKey k p).driver.afterwards = s.driver.afterwards := rfl
@[simp] theorem State.setKey_driver_answer (k : Nibble) (p : Bool) : (s.setKey k p).driver.answer = s.driver.answer := rfl
@[simp] theorem State.setKey_driver (k : Nibble) (p : Bool) : (s.setKey k p).driver = s.driver := rfl
@[simp] theorem State.setKey_getV (k : Nibble) (p : Bool) (q : Nibble) : (s.setKey k p).getV q = s.getV q := rfl
@[simp] theorem State.setKey_stackEntry (k : Nibble) (p : Bool) (q : Nibble) : (s.setKey k p).stackEntry q = s.stackEntry q := rfl
@[simp] theorem State.setKey_readByte (k : Nibble) (p : Bool) (q : Nat) : (s.setKey k p).readByte q = s.readByte q := rfl
@[simp] theorem State.setKey_readBytes (k : Nibble) (p : Bool) (q len : Nat) : (s.setKey k p).readBytes q len = s.readBytes q len := rfl

/-! ## writeByte -/

@[simp] theorem State.writeByte_cpu_v (a : Nat) (b : Byte) : (s.writeByte a b).cpu.v = s.cpu.v := rfl
@[simp] theorem State.writeByte_cpu_i (a : Nat) (b : Byte) : (s.writeByte a b).cpu.i = s.cpu.i := rfl
@[simp] theorem State.writeByte_cpu_pc (a : Nat) (b : Byte) : (s.writeByte a b).cpu.pc = s.cpu.pc := rfl
@[simp] theorem State.writeByte_cpu_sp (a : Nat) (b : Byte) : (s.writeByte a b).cpu.sp = s.cpu.sp := rfl
@[simp] theorem State.writeByte_cpu_callStack (a : Nat) (b : Byte) : (s.writeByte a b).cpu.callStack = s.cpu.callStack := rfl
@[simp] theorem State.writeByte_cpu_dt (a : Nat) (b : Byte) : (s.writeByte a b).cpu.dt = s.cpu.dt := rfl
@[simp] theorem State.writeByte_cpu_st (a : Nat) (b : Byte) : (s.writeByte a b).cpu.st = s.cpu.st := rfl
@[simp] theorem State.writeByte_cpu_keypad (a : Nat) (b : Byte) : (s.writeByte a b).cpu.keypad = s.cpu.keypad := rfl
@[simp] theorem State.writeByte_mem (a : Nat) (b : Byte) : (s.writeByte a b).mem = Memory.write s.mem a b := rfl
@[simp] theorem State.writeByte_screen (a : Nat) (b : Byte) : (s.writeByte a b).screen = s.screen := rfl
@[simp] theorem State.writeByte_params (a : Nat) (b : Byte) : (s.writeByte a b).params = s.params := rfl
@[simp] theorem State.writeByte_rndReads (a : Nat) (b : Byte) : (s.writeByte a b).rndReads = s.rndReads := rfl
@[simp] theorem State.writeByte_driver_schedule (a : Nat) (b : Byte) : (s.writeByte a b).driver.schedule = s.driver.schedule := rfl
@[simp] theorem State.writeByte_driver_policy (a : Nat) (b : Byte) : (s.writeByte a b).driver.policy = s.driver.policy := rfl
@[simp] theorem State.writeByte_driver_afterwards (a : Nat) (b : Byte) : (s.writeByte a b).driver.afterwards = s.driver.afterwards := rfl
@[simp] theorem State.writeByte_driver_answer (a : Nat) (b : Byte) : (s.writeByte a b).driver.answer = s.driver.answer := rfl
@[simp] theorem State.writeByte_cpu (a : Nat) (b : Byte) : (s.writeByte a b).cpu = s.cpu := rfl
@[simp] theorem State.writeByte_driver (a : Nat) (b : Byte) : (s.writeByte a b).driver = s.driver := rfl
@[simp] theorem State.writeByte_getV (a : Nat) (b : Byte) (q : Nibble) : (s.writeByte a b).getV q = s.getV q := rfl
@[simp] theorem State.writeByte_stackEntry (a : Nat) (b : Byte) (q : Nibble) : (s.writeByte a b).stackEntry q = s.stackEntry q := rfl
@[simp] theorem State.writeByte_key (a : Nat) (b : Byte) (q : Nibble) : (s.writeByte a b).key q = s.key q := rfl

/-! ## writeBytes -/

@[simp] theorem State.writeBytes_cpu_v (a : Nat) (bs : List Byte) : (s.writeBytes a bs).cpu.v = s.cpu.v := rfl
@[simp] theorem State.writeBytes_cpu_i (a : Nat) (bs : List Byte) : (s.writeBytes a bs).cpu.i = s.cpu.i := rfl
@[simp] theorem State.writeBytes_cpu_pc (a : Nat) (bs : List Byte) : (s.writeBytes a bs).cpu.pc = s.cpu.pc := rfl
@[simp] theorem State.writeBytes_cpu_sp (a : Nat) (bs : List Byte) : (s.writeBytes a bs).cpu.sp = s.cpu.sp := rfl
@[simp] theorem State.writeBytes_cpu_callStack (a : Nat) (bs : List Byte) : (s.writeBytes a bs).cpu.callStack = s.cpu.callStack := rfl
@[simp] theorem State.writeBytes_cpu_dt (a : Nat) (bs : List Byte) : (s.writeBytes a bs).cpu.dt = s.cpu.dt := rfl
@[simp] theorem State.writeBytes_cpu_st (a : Nat) (bs : List Byte) : (s.writeBytes a bs).cpu.st = s.cpu.st := rfl
@[simp] theorem State.writeBytes_cpu_keypad (a : Nat) (bs : List Byte) : (s.writeBytes a bs).cpu.keypad = s.cpu.keypad := rfl
@[simp] theorem State.writeBytes_mem (a : Nat) (bs : List Byte) : (s.writeBytes a bs).mem = Memory.writeBytes s.mem a bs := rfl
@[simp] theorem State.writeBytes_screen (a : Nat) (bs : List Byte) : (s.writeBytes a bs).screen = s.screen := rfl
@[simp] theorem State.writeBytes_params (a : Nat) (bs : List Byte) : (s.writeBytes a bs).params = s.params := rfl
@[simp] theorem State.writeBytes_rndReads (a : Nat) (bs : List Byte) : (s.writeBytes a bs).rndReads = s.rndReads := rfl
@[simp] theorem State.writeBytes_driver_schedule (a : Nat) (bs : List Byte) : (s.writeBytes a bs).driver.schedule = s.driver.schedule := rfl
@[simp] theorem State.writeBytes_driver_policy (a : Nat) (bs : List Byte) : (s.writeBytes a bs).driver.policy = s.driver.policy := rfl
@[simp] theorem State.writeBytes_driver_afterwards (a : Nat) (bs : List Byte) : (s.writeBytes a bs).driver.afterwards = s.driver.afterwards := rfl
@[simp] theorem State.writeBytes_driver_answer (a : Nat) (bs : List Byte) : (s.writeBytes a bs).driver.answer = s.driver.answer := rfl
@[simp] theorem State.writeBytes_cpu (a : Nat) (bs : List Byte) : (s.writeBytes a bs).cpu = s.cpu := rfl
@[simp] theorem State.writeBytes_driver (a : Nat) (bs : List Byte) : (s.writeBytes a bs).driver = s.driver := rfl
@[simp] theorem State.writeBytes_getV (a : Nat) (bs : List Byte) (q : Nibble) : (s.writeBytes a bs).getV q = s.getV q := rfl
@[simp] theorem State.writeBytes_stackEntry (a : Nat) (bs : List Byte) (q : Nibble) : (s.writeBytes a bs).stackEntry q = s.stackEntry q := rfl
@[simp] theorem State.writeBytes_key (a : Nat) (bs : List Byte) (q : Nibble) : (s.writeBytes a bs).key q = s.key q := rfl

/-! ## setScreen -/

@[simp] theorem State.setScreen_cpu_v (sc : Screen) : (s.setScreen sc).cpu.v = s.cpu.v := rfl
@[simp] theorem State.setScreen_cpu_i (sc : Screen) : (s.setScreen sc).cpu.i = s.cpu.i := rfl
@[simp] theorem State.setScreen_cpu_pc (sc : Screen) : (s.setScreen sc).cpu.pc = s.cpu.pc := rfl
@[simp] theorem State.setScreen_cpu_sp (sc : Screen) : (s.setScreen sc).cpu.sp = s.cpu.sp := rfl
@[simp] theorem State.setScreen_cpu_callStack (sc : Screen) : (s.setScreen sc).cpu.callStack = s.cpu.callStack := rfl
@[simp] theorem State.setScreen_cpu_dt (sc : Screen) : (s.setScreen sc).cpu.dt = s.cpu.dt := rfl
@[simp] theorem State.setScreen_cpu_st (sc : Screen) : (s.setScreen sc).cpu.st = s.cpu.st := rfl
@[simp] theorem State.setScreen_cpu_keypad (sc : Screen) : (s.setScreen sc).cpu.keypad = s.cpu.keypad := rfl
@[simp] theorem State.setScreen_mem (sc : Screen) : (s.setScreen sc).mem = s.mem := rfl
@[simp] theorem State.setScreen_screen (sc : Screen) : (s.setScreen sc).screen = sc := rfl
@[simp] theorem State.setScreen_params (sc : Screen) : (s.setScreen sc).params = s.params := rfl
@[simp] theorem State.setScreen_rndReads (sc : Screen) : (s.setScreen sc).rndReads = s.rndReads := rfl
@[simp] theorem State.setScreen_driver_schedule (sc : Screen) : (s.setScreen sc).driver.schedule = s.driver.schedule := rfl
@[simp] theorem State.setScreen_driver_policy (sc : Screen) : (s.setScreen sc).driver.policy = s.driver.policy := rfl
@[simp] theorem State.setScreen_driver_afterwards (sc : Screen) : (s.setScreen sc).driver.afterwards = s.driver.afterwards := rfl
@[simp] theorem State.setScreen_driver_answer (sc : Screen) : (s.setScreen sc).driver.answer = s.driver.answer := rfl
@[simp] theorem State.setScreen_cpu (sc : Screen) : (s.setScreen sc).cpu = s.cpu := rfl
@[simp] theorem State.setScreen_driver (sc : Screen) : (s.setScreen sc).driver = s.driver := rfl
@[simp] theorem State.setScreen_getV (sc : Screen) (q : Nibble) : (s.setScreen sc).getV q = s.getV q := rfl
@[simp] theorem State.setScreen_stackEntry (sc : Screen) (q : Nibble) : (s.setScreen sc).stackEntry q = s.stackEntry q := rfl
@[simp] theorem State.setScreen_key (sc : Screen) (q : Nibble) : (s.setScreen sc).key q = s.key q := rfl
@[simp] theorem State.setScreen_readByte (sc : Screen) (q : Nat) : (s.setScreen sc).readByte q = s.readByte q := rfl
@[simp] theorem State.setScreen_readBytes (sc : Screen) (q len : Nat) : (s.setScreen sc).readBytes q len = s.readBytes q len := rfl

/-! ## countRnd -/

@[simp] theorem State.countRnd_cpu_v : (s.countRnd).cpu.v = s.cpu.v := rfl
@[simp] theorem State.countRnd_cpu_i : (s.countRnd).cpu.i = s.cpu.i := rfl
@[simp] theorem State.countRnd_cpu_pc : (s.countRnd).cpu.pc = s.cpu.pc := rfl
@[simp] theorem State.countRnd_cpu_sp : (s.countRnd).cpu.sp = s.cpu.sp := rfl
@[simp] theorem State.countRnd_cpu_callStack : (s.countRnd).cpu.callStack = s.cpu.callStack := rfl
@[simp] theorem State.countRnd_cpu_dt : (s.countRnd).cpu.dt = s.cpu.dt := rfl
@[simp] theorem State.countRnd_cpu_st : (s.countRnd).cpu.st = s.cpu.st := rfl
@[simp] theorem State.countRnd_cpu_keypad : (s.countRnd).cpu.keypad = s.cpu.keypad := rfl
@[simp] theorem State.countRnd_mem : (s.countRnd).mem = s.mem := rfl
@[simp] theorem State.countRnd_screen : (s.countRnd).screen = s.screen := rfl
@[simp] theorem State.countRnd_params : (s.countRnd).params = s.params := rfl
@[simp] theorem State.countRnd_rndReads : (s.countRnd).rndReads = s.rndReads + 1 := rfl
@[simp] theorem State.countRnd_driver_schedule : (s.countRnd).driver.schedule = s.driver.schedule := rfl
@[simp] theorem State.countRnd_driver_policy : (s.countRnd).driver.policy = s.driver.policy := rfl
@[simp] theorem State.countRnd_driver_afterwards : (s.countRnd).driver.afterwards = s.driver.afterwards := rfl
@[simp] theorem State.countRnd_driver_answer : (s.countRnd).driver.answer = s.driver.answer := rfl
@[simp] theorem State.countRnd_cpu : (s.countRnd).cpu = s.cpu := rfl
@[simp] theorem State.countRnd_driver : (s.countRnd).driver = s.driver := rfl
@[simp] theorem State.countRnd_getV (q : Nibble) : (s.countRnd).getV q = s.getV q := rfl
@[simp] theorem State.countRnd_stackEntry (q : Nibble) : (s.countRnd).stackEntry q = s.stackEntry q := rfl
@[simp] theorem State.countRnd_key (q : Nibble) : (s.countRnd).key q = s.key q := rfl
@[simp] theorem State.countRnd_readByte (q : Nat) : (s.countRnd).readByte q = s.readByte q := rfl
@[simp] theorem State.countRnd_readBytes (q len : Nat) : (s.countRnd).readBytes q len = s.readBytes q len := rfl

/-! ## setAnswer -/

@[simp] theorem State.setAnswer_cpu_v (v : Answer) : (s.setAnswer v).cpu.v = s.cpu.v := rfl
@[simp] theorem State.setAnswer_cpu_i (v : Answer) : (s.setAnswer v).cpu.i = s.cpu.i := rfl
@[simp] theorem State.setAnswer_cpu_pc (v : Answer) : (s.setAnswer v).cpu.pc = s.cpu.pc := rfl
@[simp] theorem State.setAnswer_cpu_sp (v : Answer) : (s.setAnswer v).cpu.sp = s.cpu.sp := rfl
@[simp] theorem State.setAnswer_cpu_callStack (v : Answer) : (s.setAnswer v).cpu.callStack = s.cpu.callStack := rfl
@[simp] theorem State.setAnswer_cpu_dt (v : Answer) : (s.setAnswer v).cpu.dt = s.cpu.dt := rfl
@[simp] theorem State.setAnswer_cpu_st (v : Answer) : (s.setAnswer v).cpu.st = s.cpu.st := rfl
@[simp] theorem State.setAnswer_cpu_keypad (v : Answer) : (s.setAnswer v).cpu.keypad = s.cpu.keypad := rfl
@[simp] theorem State.setAnswer_mem (v : Answer) : (s.setAnswer v).mem = s.mem := rfl
@[simp] theorem State.setAnswer_screen (v : Answer) : (s.setAnswer v).screen = s.screen := rfl
@[simp] theorem State.setAnswer_params (v : Answer) : (s.setAnswer v).params = s.params := rfl
@[simp] theorem State.setAnswer_rndReads (v : Answer) : (s.setAnswer v).rndReads = s.rndReads := rfl
@[simp] theorem State.setAnswer_driver_schedule (v : Answer) : (s.setAnswer v).driver.schedule = s.driver.schedule := rfl
@[simp] theorem State.setAnswer_driver_policy (v : Answer) : (s.setAnswer v).driver.policy = s.driver.policy := rfl
@[simp] theorem State.setAnswer_driver_afterwards (v : Answer) : (s.setAnswer v).driver.afterwards = s.driver.afterwards := rfl
@[simp] theorem State.setAnswer_driver_answer (v : Answer) : (s.setAnswer v).driver.answer = v := rfl
@[simp] theorem State.setAnswer_cpu (v : Answer) : (s.setAnswer v).cpu = s.cpu := rfl
@[simp] theorem State.setAnswer_getV (v : Answer) (q : Nibble) : (s.setAnswer v).getV q = s.getV q := rfl
@[simp] theorem State.setAnswer_stackEntry (v : Answer) (q : Nibble) : (s.setAnswer v).stackEntry q = s.stackEntry q := rfl
@[simp] theorem State.setAnswer_key (v : Answer) (q : Nibble) : (s.setAnswer v).key q = s.key q := rfl
@[simp] theorem State.setAnswer_readByte (v : Answer) (q : Nat) : (s.setAnswer v).readByte q = s.readByte q := rfl
@[simp] theorem State.setAnswer_readBytes (v : Answer) (q len : Nat) : (s.setAnswer v).readBytes q len = s.readBytes q len := rfl

/-! ## setSchedule -/

@[simp] theorem State.setSchedule_cpu_v (es : List Event) : (s.setSchedule es).cpu.v = s.cpu.v := rfl
@[simp] theorem State.setSchedule_cpu_i (es : List Event) : (s.setSchedule es).cpu.i = s.cpu.i := rfl
@[simp] theorem State.setSchedule_cpu_pc (es : List Event) : (s.setSchedule es).cpu.pc = s.cpu.pc := rfl
@[simp] theorem State.setSchedule_cpu_sp (es : List Event) : (s.setSchedule es).cpu.sp = s.cpu.sp := rfl
@[simp] theorem State.setSchedule_cpu_callStack (es : List Event) : (s.setSchedule es).cpu.callStack = s.cpu.callStack := rfl
@[simp] theorem State.setSchedule_cpu_dt (es : List Event) : (s.setSchedule es).cpu.dt = s.cpu.dt := rfl
@[simp] theorem State.setSchedule_cpu_st (es : List Event) : (s.setSchedule es).cpu.st = s.cpu.st := rfl
@[simp] theorem State.setSchedule_cpu_keypad (es : List Event) : (s.setSchedule es).cpu.keypad = s.cpu.keypad := rfl
@[simp] theorem State.setSchedule_mem (es : List Event) : (s.setSchedule es).mem = s.mem := rfl
@[simp] theorem State.setSchedule_screen (es : List Event) : (s.setSchedule es).screen = s.screen := rfl
@[simp] theorem State.setSchedule_params (es : List Event) : (s.setSchedule es).params = s.params := rfl
@[simp] theorem State.setSchedule_rndReads (es : List Event) : (s.setSchedule es).rndReads = s.rndReads := rfl
@[simp] theorem State.setSchedule_driver_schedule (es : List Event) : (s.setSchedule es).driver.schedule = es := rfl
@[simp] theorem State.setSchedule_driver_policy (es : List Event) : (s.setSchedule es).driver.policy = s.driver.policy := rfl
@[simp] theorem State.setSchedule_driver_afterwards (es : List Event) : (s.setSchedule es).driver.afterwards = s.driver.afterwards := rfl
@[simp] theorem State.setSchedule_driver_answer (es : List Event) : (s.setSchedule es).driver.answer = s.driver.answer := rfl
@[simp] theorem State.setSchedule_cpu (es : List Event) : (s.setSchedule es).cpu = s.cpu := rfl
@[simp] theorem State.setSchedule_getV (es : List Event) (q : Nibble) : (s.setSchedule es).getV q = s.getV q := rfl
@[simp] theorem State.setSchedule_stackEntry (es : List Event) (q : Nibble) : (s.setSchedule es).stackEntry q = s.stackEntry q := rfl
@[simp] theorem State.setSchedule_key (es : List Event) (q : Nibble) : (s.setSchedule es).key q = s.key q := rfl
@[simp] theorem State.setSchedule_readByte (es : List Event) (q : Nat) : (s.setSchedule es).readByte q = s.readByte q := rfl
@[simp] theorem State.setSchedule_readBytes (es : List Event) (q len : Nat) : (s.setSchedule es).readBytes q len = s.readBytes q len := rfl

/-! ## setAfterwards -/

@[simp] theorem State.setAfterwards_cpu_v (c : Continuation) : (s.setAfterwards c).cpu.v = s.cpu.v := rfl
@[simp] theorem State.setAfterwards_cpu_i (c : Continuation) : (s.setAfterwards c).cpu.i = s.cpu.i := rfl
@[simp] theorem State.setAfterwards_cpu_pc (c : Continuation) : (s.setAfterwards c).cpu.pc = s.cpu.pc := rfl
@[simp] theorem State.setAfterwards_cpu_sp (c : Continuation) : (s.setAfterwards c).cpu.sp = s.cpu.sp := rfl
@[simp] theorem State.setAfterwards_cpu_callStack (c : Continuation) : (s.setAfterwards c).cpu.callStack = s.cpu.callStack := rfl
@[simp] theorem State.setAfterwards_cpu_dt (c : Continuation) : (s.setAfterwards c).cpu.dt = s.cpu.dt := rfl
@[simp] theorem State.setAfterwards_cpu_st (c : Continuation) : (s.setAfterwards c).cpu.st = s.cpu.st := rfl
@[simp] theorem State.setAfterwards_cpu_keypad (c : Continuation) : (s.setAfterwards c).cpu.keypad = s.cpu.keypad := rfl
@[simp] theorem State.setAfterwards_mem (c : Continuation) : (s.setAfterwards c).mem = s.mem := rfl
@[simp] theorem State.setAfterwards_screen (c : Continuation) : (s.setAfterwards c).screen = s.screen := rfl
@[simp] theorem State.setAfterwards_params (c : Continuation) : (s.setAfterwards c).params = s.params := rfl
@[simp] theorem State.setAfterwards_rndReads (c : Continuation) : (s.setAfterwards c).rndReads = s.rndReads := rfl
@[simp] theorem State.setAfterwards_driver_schedule (c : Continuation) : (s.setAfterwards c).driver.schedule = s.driver.schedule := rfl
@[simp] theorem State.setAfterwards_driver_policy (c : Continuation) : (s.setAfterwards c).driver.policy = s.driver.policy := rfl
@[simp] theorem State.setAfterwards_driver_afterwards (c : Continuation) : (s.setAfterwards c).driver.afterwards = c := rfl
@[simp] theorem State.setAfterwards_driver_answer (c : Continuation) : (s.setAfterwards c).driver.answer = s.driver.answer := rfl
@[simp] theorem State.setAfterwards_cpu (c : Continuation) : (s.setAfterwards c).cpu = s.cpu := rfl
@[simp] theorem State.setAfterwards_getV (c : Continuation) (q : Nibble) : (s.setAfterwards c).getV q = s.getV q := rfl
@[simp] theorem State.setAfterwards_stackEntry (c : Continuation) (q : Nibble) : (s.setAfterwards c).stackEntry q = s.stackEntry q := rfl
@[simp] theorem State.setAfterwards_key (c : Continuation) (q : Nibble) : (s.setAfterwards c).key q = s.key q := rfl
@[simp] theorem State.setAfterwards_readByte (c : Continuation) (q : Nat) : (s.setAfterwards c).readByte q = s.readByte q := rfl
@[simp] theorem State.setAfterwards_readBytes (c : Continuation) (q len : Nat) : (s.setAfterwards c).readBytes q len = s.readBytes q len := rfl

/-! ## setFlag -/

@[simp] theorem State.setFlag_cpu_v (c : Bool) : (s.setFlag c).cpu.v = s.cpu.v.set 15 (flagByte c) := rfl
@[simp] theorem State.setFlag_cpu_i (c : Bool) : (s.setFlag c).cpu.i = s.cpu.i := rfl
@[simp] theorem State.setFlag_cpu_pc (c : Bool) : (s.setFlag c).cpu.pc = s.cpu.pc := rfl
@[simp] theorem State.setFlag_cpu_sp (c : Bool) : (s.setFlag c).cpu.sp = s.cpu.sp := rfl
@[simp] theorem State.setFlag_cpu_callStack (c : Bool) : (s.setFlag c).cpu.callStack = s.cpu.callStack := rfl
@[simp] theorem State.setFlag_cpu_dt (c : Bool) : (s.setFlag c).cpu.dt = s.cpu.dt := rfl
@[simp] theorem State.setFlag_cpu_st (c : Bool) : (s.setFlag c).cpu.st = s.cpu.st := rfl
@[simp] theorem State.setFlag_cpu_keypad (c : Bool) : (s.setFlag c).cpu.keypad = s.cpu.keypad := rfl
@[simp] theorem State.setFlag_mem (c : Bool) : (s.setFlag c).mem = s.mem := rfl
@[simp] theorem State.setFlag_screen (c : Bool) : (s.setFlag c).screen = s.screen := rfl
@[simp] theorem State.setFlag_params (c : Bool) : (s.setFlag c).params = s.params := rfl
@[simp] theorem State.setFlag_rndReads (c : Bool) : (s.setFlag c).rndReads = s.rndReads := rfl
@[simp] theorem State.setFlag_driver_schedule (c : Bool) : (s.setFlag c).driver.schedule = s.driver.schedule := rfl
@[simp] theorem State.setFlag_driver_policy (c : Bool) : (s.setFlag c).driver.policy = s.driver.policy := rfl
@[simp] theorem State.setFlag_driver_afterwards (c : Bool) : (s.setFlag c).driver.afterwards = s.driver.afterwards := rfl
@[simp] theorem State.setFlag_driver_answer (c : Bool) : (s.setFlag c).driver.answer = s.driver.answer := rfl
@[simp] theorem State.setFlag_driver (c : Bool) : (s.setFlag c).driver = s.driver := rfl
@[simp] theorem State.setFlag_stackEntry (c : Bool) (q : Nibble) : (s.setFlag c).stackEntry q = s.stackEntry q := rfl
@[simp] theorem State.setFlag_key (c : Bool) (q : Nibble) : (s.setFlag c).key q = s.key q := rfl
@[simp] theorem State.setFlag_readByte (c : Bool) (q : Nat) : (s.setFlag c).readByte q = s.readByte q := rfl
@[simp] theorem State.setFlag_readBytes (c : Bool) (q len : Nat) : (s.setFlag c).readBytes q len = s.readBytes q len := rfl

end Sys2Proof.Machine
end

