-- ==== Sys2Proof/Laws/Ops.lean ====
section
/-! SUPPORT. One lemma per shared operation saying what it does: register and stack accessors, delivery of an error, the
bounds check, fetch, push and pop, loads and stores of several registers, flags, key lookup. -/

namespace Sys2Proof.Machine

variable (s : State)

/-! ## Accessors -/

theorem State.getV_setV (x j : Nibble) (b : Byte) : (s.setV x b).getV j = if j = x then b else s.getV j := by
  by_cases h : j = x
  · subst h; simp [State.getV]
  · have hn : x.toNat ≠ j.toNat := fun e => h (BitVec.eq_of_toNat_eq e.symm)
    simp [State.getV, h, hn]

@[simp] theorem State.getV_setV_same (x : Nibble) (b : Byte) : (s.setV x b).getV x = b := by
  simp [State.getV_setV]

theorem State.getV_setV_other (x j : Nibble) (b : Byte) (h : j ≠ x) : (s.setV x b).getV j = s.getV j := by
  simp [State.getV_setV, h]

theorem State.stackEntry_setStackEntry (j k : Nibble) (w : Word) :
    (s.setStackEntry j w).stackEntry k = if k = j then w else s.stackEntry k := by
  by_cases h : k = j
  · subst h; simp [State.stackEntry]
  · have hn : j.toNat ≠ k.toNat := fun e => h (BitVec.eq_of_toNat_eq e.symm)
    simp [State.stackEntry, h, hn]

theorem State.key_setKey (k j : Nibble) (p : Bool) : (s.setKey k p).key j = if j = k then p else s.key j := by
  by_cases h : j = k
  · subst h; simp [State.key]
  · have hn : k.toNat ≠ j.toNat := fun e => h (BitVec.eq_of_toNat_eq e.symm)
    simp [State.key, h, hn]

theorem State.readByte_writeByte (a c : Nat) (b : Byte) :
    (s.writeByte a b).readByte c = if c = a then b else s.readByte c := Memory.read_write s.mem a c b

theorem State.readByte_writeBytes (a c : Nat) (bs : List Byte) :
    (s.writeBytes a bs).readByte c =
      if h : a ≤ c ∧ c - a < bs.length then bs[c - a]'h.2 else s.readByte c := Memory.read_writeBytes s.mem a bs c

/-! ## Flags -/

theorem State.getV_setFlag (j : Nibble) (c : Bool) :
    (s.setFlag c).getV j = if j = 0xF#4 then flagByte c else s.getV j := State.getV_setV s _ _ _

theorem State.getV_setResultFlag (x j : Nibble) (r : Byte) (c : Bool) :
    (s.setResultFlag x r c).getV j = if j = 0xF#4 then flagByte c else if j = x then r else s.getV j := by
  rw [State.setResultFlag, State.getV_setFlag, State.getV_setV]

@[simp] theorem State.setResultFlag_pc (x : Nibble) (r : Byte) (c : Bool) :
    (s.setResultFlag x r c).cpu.pc = s.cpu.pc := rfl

/-! ## Errors and bounds -/

/-- An error answer changes the recorded answer and nothing else. -/
theorem raise_eq_next (e : Error) (t : State) : raise e s = .next t ↔ t = s.setAnswer (.error e) := by
  simp [raise, eq_comm]

theorem withinMemory_of_lt (a : Nat) (body : Result) (h : a < s.params.memLen) : withinMemory a s body = body := by
  simp [withinMemory, Nat.not_le.mpr h]

theorem withinMemory_of_le (a : Nat) (body : Result) (h : s.params.memLen ≤ a) :
    withinMemory a s body = raise (.addressOutOfBounds a s.params.memLen) s := by
  simp [withinMemory, h]

/-- A checked operation either passed the check and is its body, or raised the error of R25. -/
theorem withinMemory_cases (a : Nat) (body : Result) :
    (a < s.params.memLen ∧ withinMemory a s body = body) ∨
      (s.params.memLen ≤ a ∧ withinMemory a s body = raise (.addressOutOfBounds a s.params.memLen) s) := by
  by_cases h : a < s.params.memLen
  · exact .inl ⟨h, withinMemory_of_lt s a body h⟩
  · exact .inr ⟨Nat.not_lt.mp h, withinMemory_of_le s a body (Nat.not_lt.mp h)⟩

/-! ## Fetch, push, pop -/

theorem fetch_of_lt (h : s.cpu.pc.toNat + 1 < s.params.memLen) :
    fetch s = .ok (s.wordAt s.cpu.pc.toNat, s.advancePc) := by
  simp [fetch, Nat.not_le.mpr h]

theorem fetch_of_le (h : s.params.memLen ≤ s.cpu.pc.toNat + 1) :
    fetch s = .error (.addressOutOfBounds (s.cpu.pc.toNat + 1) s.params.memLen) := by
  simp [fetch, h]

theorem push_of_full (v : Word) (h : s.cpu.sp = 0xF#4) : push v s = .error (.stackOverflow 15) := by
  simp [push, h]

theorem push_of_not_full (v : Word) (h : s.cpu.sp ≠ 0xF#4) :
    push v s = .ok ((s.setSp (s.cpu.sp + 1)).setStackEntry (s.cpu.sp + 1) v) := by
  simp [push, h]

theorem pop_of_empty (h : s.cpu.sp = 0x0#4) : pop s = .error .stackUnderflow := by
  simp [pop, h]

theorem pop_of_not_empty (h : s.cpu.sp ≠ 0x0#4) :
    pop s = .ok (s.stackEntry s.cpu.sp, s.setSp (s.cpu.sp - 1)) := by
  simp [pop, h]

/-! ## Several registers -/

@[simp] theorem State.setRegsFrom_mem (j : Nat) (bs : List Byte) : (s.setRegsFrom j bs).mem = s.mem := by
  induction bs generalizing s j with
  | nil => rfl
  | cons b rest ih => simp [State.setRegsFrom, ih]

/-- Loading registers changes `V` and nothing else. -/
theorem State.setRegsFrom_eq (j : Nat) (bs : List Byte) :
    s.setRegsFrom j bs = { s with cpu := { s.cpu with v := (s.setRegsFrom j bs).cpu.v } } := by
  induction bs generalizing s j with
  | nil => rfl
  | cons b rest ih =>
    rw [State.setRegsFrom, ih]
    rfl

/-- Byte `k` of the list is in `V[j + k]` afterwards; every other register is as before. -/
theorem State.getV_setRegsFrom (j : Nat) (bs : List Byte) (q : Nibble) (h : j + bs.length ≤ 16) :
    (s.setRegsFrom j bs).getV q =
      if h : j ≤ q.toNat ∧ q.toNat - j < bs.length then bs[q.toNat - j]'h.2 else s.getV q := by
  induction bs generalizing s j with
  | nil => simp [State.setRegsFrom]
  | cons b rest ih =>
    simp only [List.length_cons] at h
    rw [State.setRegsFrom, ih _ _ (by omega)]
    have hj : (BitVec.ofNat 4 j).toNat = j := by simp; omega
    by_cases hlt : j + 1 ≤ q.toNat ∧ q.toNat - (j + 1) < rest.length
    · have h2 : j ≤ q.toNat ∧ q.toNat - j < (b :: rest).length := by simp only [List.length_cons]; omega
      have e : q.toNat - j = (q.toNat - (j + 1)) + 1 := by omega
      rw [dif_pos hlt, dif_pos h2]
      simp only [e, List.getElem_cons_succ]
    · rw [dif_neg hlt, State.getV_setV]
      by_cases hq : q = BitVec.ofNat 4 j
      · have hq' : q.toNat = j := by rw [hq, hj]
        simp [hq, hj]
      · have hq' : q.toNat ≠ j := fun e => hq (BitVec.eq_of_toNat_eq (by rw [hj, e]))
        have h2 : ¬ (j ≤ q.toNat ∧ q.toNat - j < (b :: rest).length) := by simp only [List.length_cons]; omega
        rw [dif_neg h2, if_neg hq]

@[simp] theorem State.length_regsUpTo (x : Nibble) : (s.regsUpTo x).length = x.toNat + 1 := by
  simp [State.regsUpTo]

theorem State.getElem_regsUpTo (x : Nibble) (k : Nat) (h : k < (s.regsUpTo x).length) :
    (s.regsUpTo x)[k] = s.getV (BitVec.ofNat 4 k) := by
  simp [State.regsUpTo]

/-! ## Operands -/

theorem nibbleOperand_of_le (b : Byte) (h : b.toNat ≤ 15) : nibbleOperand b = some (b.setWidth 4) := by
  simp [nibbleOperand, h]

theorem nibbleOperand_of_lt (b : Byte) (h : 15 < b.toNat) : nibbleOperand b = none := by
  simp [nibbleOperand, Nat.not_le.mpr h]

/-- The least pressed key is pressed, below 16, and no lower one is pressed (45_keypad_timers.md R89). -/
theorem leastPressed_eq_some (k : Nat) :
    leastPressed s = some k ↔
      k < 16 ∧ s.key (BitVec.ofNat 4 k) = true ∧ ∀ j, j < k → s.key (BitVec.ofNat 4 j) = false := by
  rw [leastPressed, List.find?_range_eq_some]
  simp only [Bool.not_eq_true', List.mem_range]
  tauto

theorem leastPressed_eq_none : leastPressed s = none ↔ ∀ k : Nibble, s.key k = false := by
  rw [leastPressed, List.find?_eq_none]
  constructor
  · intro h k
    have := h k.toNat (by simpa using k.isLt)
    simpa using this
  · intro h k _
    simp [h]

end Sys2Proof.Machine
end

