-- ==== Sys2Proof/Laws/Screen.lean ====
section
/-! SUPPORT. One pixel at a time: what toggling, drawing one sprite pixel and drawing a sprite row do to `pixelAt`
(60_exceptions.md R107). -/

namespace Sys2Proof.Machine

@[simp] theorem pixelAt_off_screen (p : Pixels) (col row : Nat) (h : ¬ (row < 32 ∧ col < 64)) :
    pixelAt p col row = false := by
  simp [pixelAt, h]

@[simp] theorem pixelAt_pixelsOff (col row : Nat) : pixelAt pixelsOff col row = false := by
  unfold pixelAt pixelsOff
  split <;> simp

/-- Toggling changes the one pixel it names, when that is on the screen. -/
theorem pixelAt_togglePixel (p : Pixels) (c r col row : Nat) :
    pixelAt (togglePixel p c r) col row =
      (pixelAt p col row != decide (col = c ∧ row = r ∧ r < 32 ∧ c < 64)) := by
  by_cases hs : r < 32 ∧ c < 64
  · by_cases hq : row < 32 ∧ col < 64
    · by_cases hr : row = r
      · subst hr
        by_cases hc : col = c
        · subst hc
          simp [togglePixel, pixelAt, hq]
        · have hc' : c ≠ col := fun e => hc e.symm
          simp [togglePixel, pixelAt, hs, hq, hc, hc']
      · have hr' : r ≠ row := fun e => hr e.symm
        simp [togglePixel, pixelAt, hs, hq, hr, hr']
    · have hn : ¬ (col = c ∧ row = r ∧ r < 32 ∧ c < 64) := by rintro ⟨rfl, rfl, h⟩; exact hq h
      simp only [pixelAt_off_screen _ _ _ hq, decide_eq_false hn, Bool.bne_false]
  · have hn : ¬ (col = c ∧ row = r ∧ r < 32 ∧ c < 64) := fun e => hs e.2.2
    rw [togglePixel, dif_neg hs, decide_eq_false hn, Bool.bne_false]

/-- Two screens with the same pixels are the same. -/
theorem pixels_ext (p q : Pixels) (h : ∀ col row, pixelAt p col row = pixelAt q col row) : p = q := by
  apply Vector.ext
  intro row hr
  apply Vector.ext
  intro col hc
  simpa [pixelAt, hr, hc] using h col row

/-- One sprite pixel: the pixel it names is toggled when on the screen, dropped otherwise. -/
theorem pixelAt_drawPixel (c r : Nat) (acc : Pixels × Bool) (col row : Nat) :
    pixelAt (drawPixel c r acc).1 col row =
      (pixelAt acc.1 col row != decide (col = c ∧ row = r ∧ r < 32 ∧ c < 64)) := by
  by_cases h : c < 64 ∧ r < 32
  · simp only [drawPixel, h, and_self, ↓reduceIte]
    rw [pixelAt_togglePixel]
    simp [h]
  · have hn : ¬ (col = c ∧ row = r ∧ r < 32 ∧ c < 64) := fun e => h ⟨e.2.2.2, e.2.2.1⟩
    simp only [drawPixel, h, ↓reduceIte, decide_eq_false hn, Bool.bne_false]

/-- One sprite pixel reports a collision when it named a pixel that was on. -/
theorem drawPixel_collision (c r : Nat) (acc : Pixels × Bool) :
    (drawPixel c r acc).2 = (acc.2 || pixelAt acc.1 c r) := by
  by_cases h : c < 64 ∧ r < 32
  · simp [drawPixel, h]
  · have : ¬ (r < 32 ∧ c < 64) := fun e => h ⟨e.2, e.1⟩
    simp [drawPixel, h, this]

@[simp] theorem screenClear_reference (p : Pixels) : screenClear (.reference p) = .reference pixelsOff := rfl

/-- The reference screen never refuses (R107). -/
theorem drawAnswer_reference (p : Pixels) (x y : Byte) (rows : List Byte) :
    drawAnswer (.reference p) x y rows = some (drawSprite p x y rows).2 := rfl

theorem screenAfterDraw_reference (p : Pixels) (x y : Byte) (rows : List Byte) :
    screenAfterDraw (.reference p) x y rows = .reference (drawSprite p x y rows).1 := rfl

end Sys2Proof.Machine
end

