-- ==== Sys2Proof/Laws/Exec.lean ====
section
/-! SUPPORT. What each branching meaning can answer: it raised one of its errors, or it is its effect. The other meanings
are a single `.next` by definition. -/

namespace Sys2Proof.Machine

variable (s t : State)

theorem withinMemory_next_cases (a : Nat) (u : State) (h : withinMemory a s (.next u) = .next t) :
    (a < s.params.memLen ∧ t = u) ∨
      (s.params.memLen ≤ a ∧ t = s.setAnswer (.error (.addressOutOfBounds a s.params.memLen))) := by
  rcases withinMemory_cases s a (.next u) with ⟨hl, e⟩ | ⟨hl, e⟩
  · rw [e] at h; cases h; exact .inl ⟨hl, rfl⟩
  · rw [e] at h; cases h; exact .inr ⟨hl, rfl⟩

theorem execRet_cases (h : execRet s = .next t) :
    (s.cpu.sp = 0x0#4 ∧ t = s.setAnswer (.error .stackUnderflow)) ∨
    (s.cpu.sp ≠ 0x0#4 ∧ (s.stackEntry s.cpu.sp).toNat < s.params.memLen ∧
      t = (s.setSp (s.cpu.sp - 1)).setPc (s.stackEntry s.cpu.sp)) ∨
    (s.cpu.sp ≠ 0x0#4 ∧ s.params.memLen ≤ (s.stackEntry s.cpu.sp).toNat ∧
      t = s.setAnswer (.error (.addressOutOfBounds (s.stackEntry s.cpu.sp).toNat s.params.memLen))) := by
  by_cases hsp : s.cpu.sp = 0x0#4
  · simp only [execRet, pop_of_empty s hsp, raise] at h
    cases h; exact .inl ⟨hsp, rfl⟩
  · simp only [execRet, pop_of_not_empty s hsp] at h
    rcases withinMemory_next_cases _ _ _ _ h with ⟨hl, e⟩ | ⟨hl, e⟩
    · exact .inr (.inl ⟨hsp, hl, e⟩)
    · exact .inr (.inr ⟨hsp, hl, e⟩)

theorem execCall_cases (nnn : Imm12) (h : execCall nnn s = .next t) :
    (s.cpu.sp = 0xF#4 ∧ t = s.setAnswer (.error (.stackOverflow 15))) ∨
    (s.cpu.sp ≠ 0xF#4 ∧ nnn.toNat < s.params.memLen ∧
      t = ((s.setSp (s.cpu.sp + 1)).setStackEntry (s.cpu.sp + 1) s.cpu.pc).setPc (zext16 nnn)) ∨
    (s.cpu.sp ≠ 0xF#4 ∧ s.params.memLen ≤ nnn.toNat ∧
      t = s.setAnswer (.error (.addressOutOfBounds nnn.toNat s.params.memLen))) := by
  by_cases hsp : s.cpu.sp = 0xF#4
  · simp only [execCall, push_of_full s _ hsp, raise] at h
    cases h; exact .inl ⟨hsp, rfl⟩
  · simp only [execCall, push_of_not_full s _ hsp] at h
    rcases withinMemory_next_cases _ _ _ _ h with ⟨hl, e⟩ | ⟨hl, e⟩
    · exact .inr (.inl ⟨hsp, hl, e⟩)
    · exact .inr (.inr ⟨hsp, hl, e⟩)

theorem execSkp_cases (x : Nibble) (h : execSkp x s = .next t) :
    (∃ c, t = skipIf c s) ∨ t = s.setAnswer (.error (.unsupportedOperation (encode (.skp x)))) := by
  unfold execSkp at h
  split at h <;> cases h
  · exact .inr rfl
  · exact .inl ⟨_, rfl⟩

theorem execSknp_cases (x : Nibble) (h : execSknp x s = .next t) :
    (∃ c, t = skipIf c s) ∨ t = s.setAnswer (.error (.unsupportedOperation (encode (.sknp x)))) := by
  unfold execSknp at h
  split at h <;> cases h
  · exact .inr rfl
  · exact .inl ⟨_, rfl⟩

theorem execLdF_cases (x : Nibble) (h : execLdF x s = .next t) :
    (∃ w, t = s.setI w) ∨ t = s.setAnswer (.error (.unsupportedOperation (encode (.ldF x)))) := by
  unfold execLdF at h
  split at h <;> cases h
  · exact .inr rfl
  · exact .inl ⟨_, rfl⟩

theorem execLdVxK_cases (x : Nibble) (h : execLdVxK x s = .next t) :
    (∃ b, t = s.setV x b) ∨ ((∀ k : Nibble, s.key k = false) ∧ t = s.setPc (s.cpu.pc - 2)) := by
  unfold execLdVxK at h
  split at h <;> cases h
  · exact .inl ⟨_, rfl⟩
  · exact .inr ⟨(leastPressed_eq_none s).mp ‹_›, rfl⟩

/-- A screen request changes the screen as `screenAfterDraw` says, and either writes the flag or raises. -/
theorem drawRequest_cases (w : Word) (vx vy : Byte) (rows : List Byte) (h : drawRequest w vx vy rows s = .next t) :
    (∃ c, drawAnswer s.screen vx vy rows = some c ∧
      t = (s.setScreen (screenAfterDraw s.screen vx vy rows)).setFlag c) ∨
    (drawAnswer s.screen vx vy rows = none ∧
      t = (s.setScreen (screenAfterDraw s.screen vx vy rows)).setAnswer (.error (.unsupportedOperation w))) := by
  unfold drawRequest at h
  split at h <;> cases h
  · exact .inr ⟨‹_›, rfl⟩
  · exact .inl ⟨_, ‹_›, rfl⟩

/-- A screen request always answers a next state. -/
theorem drawRequest_next (w : Word) (vx vy : Byte) (rows : List Byte) : ∃ t, drawRequest w vx vy rows s = .next t := by
  unfold drawRequest
  split <;> exact ⟨_, rfl⟩

/-- Only a screen other than the reference one refuses, and a refusal counts as a request (log 7). -/
theorem drawAnswer_eq_none (sc : Screen) (vx vy : Byte) (rows : List Byte) (h : drawAnswer sc vx vy rows = none) :
    ∃ n, sc = .external n ∧ screenAfterDraw sc vx vy rows = .external (n + 1) := by
  cases sc with
  | reference p => cases h
  | external n => exact ⟨n, rfl, rfl⟩

theorem execDrw_cases (x y n : Nibble) (h : execDrw x y n s = .next t) :
    drawRequest (encode (.drw x y n)) (s.getV x) (s.getV y) (s.readBytes (effAddr s 0) n.toNat) s = .next t ∨
    (n ≠ 0x0#4 ∧ s.params.memLen ≤ effAddr s (n.toNat - 1) ∧
      t = s.setAnswer (.error (.addressOutOfBounds (effAddr s (n.toNat - 1)) s.params.memLen))) := by
  unfold execDrw at h
  by_cases hn : n = 0x0#4
  · subst hn; exact .inl h
  · simp only [hn, ↓reduceIte] at h
    rcases withinMemory_cases s (effAddr s (n.toNat - 1))
      (drawRequest (encode (.drw x y n)) (s.getV x) (s.getV y) (s.readBytes (effAddr s 0) n.toNat) s) with ⟨hl, e⟩ | ⟨hl, e⟩
    · rw [e] at h; exact .inl h
    · rw [e] at h; cases h; exact .inr ⟨hn, hl, rfl⟩

/-- Within bounds, or with no row, `DRW` is its screen request. -/
theorem execDrw_of_inside (x y n : Nibble) (h : n = 0x0#4 ∨ s.cpu.i.toNat + n.toNat - 1 < s.params.memLen) :
    execDrw x y n s =
      drawRequest (encode (.drw x y n)) (s.getV x) (s.getV y) (s.readBytes (effAddr s 0) n.toNat) s := by
  unfold execDrw
  by_cases hn : n = 0x0#4
  · subst hn; rfl
  · have h0 : 0 < n.toNat := Nat.pos_of_ne_zero fun e => hn (BitVec.eq_of_toNat_eq e)
    have hl : effAddr s (n.toNat - 1) < s.params.memLen := by
      rcases h with h | h
      · exact absurd h hn
      · unfold effAddr; omega
    simp only [hn, ↓reduceIte, withinMemory_of_lt _ _ _ hl]

/-! ## Events and the driving loop -/

/-- The one event of a step, by what the driving loop has in store. -/
theorem step_of_nextEvent (e : Event) (h : nextEvent s = e) : step s = runEvent e (issueEvent s) := by
  rw [step, h]

theorem nextEvent_of_stepsOnly (h : Sys2Proof.Safety.StepsOnly s) : nextEvent s = .step := by
  simp [nextEvent, h.1, h.2]

theorem issueEvent_of_stepsOnly (h : Sys2Proof.Safety.StepsOnly s) : issueEvent s = s := by
  have e : s.setSchedule s.driver.schedule = s := rfl
  rw [h.1] at e
  simp [issueEvent, h.1, h.2, e]

theorem step_of_stepsOnly (h : Sys2Proof.Safety.StepsOnly s) : step s = afterCycle (cycle s) := by
  rw [step, nextEvent_of_stepsOnly s h, issueEvent_of_stepsOnly s h, runEvent]

theorem step_of_free (n : Nat) (h : s.driver.schedule = []) (hf : s.driver.afterwards = .free n) :
    step s = runEvent (Config.freeEvent n) (s.setAfterwards (.free (n + 1))) := by
  simp [step, nextEvent, issueEvent, h, hf]

theorem step_of_again (e : Event) (es : List Event) (h : s.driver.schedule = []) (ha : s.driver.afterwards = .again e es) :
    step s = runEvent e (s.setSchedule es) := by
  simp [step, nextEvent, issueEvent, h, ha]

theorem step_of_scheduled (e : Event) (es : List Event) (h : s.driver.schedule = e :: es) :
    step s = runEvent e (s.setSchedule es) := by
  simp [step, nextEvent, issueEvent, h]

theorem cycle_of_lt (h : s.cpu.pc.toNat + 1 < s.params.memLen) :
    cycle s = exec (decodeWord (s.wordAt s.cpu.pc.toNat)) (s.advancePc.setAnswer .ok) := by
  simp [cycle, fetch_of_lt s h]

theorem cycle_of_le (h : s.params.memLen ≤ s.cpu.pc.toNat + 1) :
    cycle s = .next (s.setAnswer (.error (.addressOutOfBounds (s.cpu.pc.toNat + 1) s.params.memLen))) := by
  simp [cycle, fetch_of_le s h, raise]

theorem stepsOnly_stepsNext : Sys2Proof.Safety.StepsOnly (stepsNext s) := ⟨rfl, rfl⟩

/-- The driving loop's reaction leaves everything but its schedule as it is, or ends the run. -/
theorem driverReacts_cases (u : State) (h : driverReacts t = .next u) : ∃ es, u = t.setSchedule es := by
  unfold driverReacts at h
  split at h
  · cases h; exact ⟨_, rfl⟩
  · split at h <;> cases h
    · exact ⟨_, rfl⟩
    · exact ⟨_, rfl⟩

theorem runFor_succ_of_next (k : Nat) (h : step s = .next t) :
    Sys2Proof.Safety.runFor (k + 1) s = Sys2Proof.Safety.runFor k t := by
  simp [Sys2Proof.Safety.runFor, h]

end Sys2Proof.Machine
end

