-- ==== Sys2Proof/Laws/PerInstr.lean ====
section
/-! SUPPORT. The per-instruction family OwnRow: the word of an instruction is selected by the instruction's own row of the
opcode table, and that row builds the instruction back from it (30_encoding.md R36, R37, R40). -/

namespace Sys2Proof.Laws

/-! ## What a row's mask keeps of a layout -/

theorem mask_F000_formatA (op : Nibble) (nnn : Imm12) : formatA op nnn &&& 0xF000#16 = formatA op 0 := by
  apply BitVec.eq_of_getLsbD_eq
  intro i hi
  rw [BitVec.getLsbD_and, getLsbD_formatA, getLsbD_formatA]
  interval_cases i <;> simp

theorem mask_F000_formatXK (op x : Nibble) (kk : Byte) : formatXK op x kk &&& 0xF000#16 = formatXK op 0 0 := by
  apply BitVec.eq_of_getLsbD_eq
  intro i hi
  rw [BitVec.getLsbD_and, getLsbD_formatXK, getLsbD_formatXK]
  interval_cases i <;> simp

theorem mask_F0FF_formatXK (op x : Nibble) (kk : Byte) : formatXK op x kk &&& 0xF0FF#16 = formatXK op 0 kk := by
  apply BitVec.eq_of_getLsbD_eq
  intro i hi
  rw [BitVec.getLsbD_and, getLsbD_formatXK, getLsbD_formatXK]
  interval_cases i <;> simp

theorem mask_F000_formatXYN (op x y n : Nibble) : formatXYN op x y n &&& 0xF000#16 = formatXYN op 0 0 0 := by
  apply BitVec.eq_of_getLsbD_eq
  intro i hi
  rw [BitVec.getLsbD_and, getLsbD_formatXYN, getLsbD_formatXYN]
  interval_cases i <;> simp

theorem mask_F00F_formatXYN (op x y n : Nibble) : formatXYN op x y n &&& 0xF00F#16 = formatXYN op 0 0 n := by
  apply BitVec.eq_of_getLsbD_eq
  intro i hi
  rw [BitVec.getLsbD_and, getLsbD_formatXYN, getLsbD_formatXYN]
  interval_cases i <;> simp

/-! ## The family -/

/-- The mnemonic of the instruction's row in spec/opcode_table.json. -/
def OwnRow.mnemonic : Instr → String
  | .cls => "CLS"
  | .ret => "RET"
  | .sys _ => "SYS_nnn"
  | .jp _ => "JP_nnn"
  | .call _ => "CALL_nnn"
  | .seImm _ _ => "SE_Vx__kk"
  | .sneImm _ _ => "SNE_Vx__kk"
  | .seReg _ _ => "SE_Vx__Vy"
  | .ldImm _ _ => "LD_Vx__kk"
  | .addImm _ _ => "ADD_Vx__kk"
  | .ldReg _ _ => "LD_Vx__Vy"
  | .orReg _ _ => "OR_Vx__Vy"
  | .andReg _ _ => "AND_Vx__Vy"
  | .xorReg _ _ => "XOR_Vx__Vy"
  | .addReg _ _ => "ADD_Vx__Vy"
  | .subReg _ _ => "SUB_Vx__Vy"
  | .shr _ _ => "SHR_Vx"
  | .subn _ _ => "SUBN_Vx__Vy"
  | .shl _ _ => "SHL_Vx"
  | .sneReg _ _ => "SNE_Vx__Vy"
  | .ldI _ => "LD_I__nnn"
  | .jpV0 _ => "JP_V0__nnn"
  | .rnd _ _ => "RND_Vx__kk"
  | .drw _ _ _ => "DRW_Vx__Vy__n"
  | .skp _ => "SKP_Vx"
  | .sknp _ => "SKNP_Vx"
  | .ldVxDt _ => "LD_Vx__DT"
  | .ldVxK _ => "LD_Vx__K"
  | .ldDtVx _ => "LD_DT__Vx"
  | .ldStVx _ => "LD_ST__Vx"
  | .addI _ => "ADD_I__Vx"
  | .ldF _ => "LD_F__Vx"
  | .ldB _ => "LD_B__Vx"
  | .ldMemVx _ => "LD__I___Vx"
  | .ldVxMem _ => "LD_Vx___I"
  | .unsupported _ => "UNSUPPORTED_w"

/-- The encoded word carries the fixed bits of the instruction's own row, and the row reads the fields back. -/
def OwnRow.Statement (i : Instr) : Prop :=
  ∃ r ∈ opcodeTable, r.mnemonic = OwnRow.mnemonic i ∧ r.selects (encode i) = true ∧ r.build (encode i) = i

theorem OwnRow.of_mem (i : Instr) (r : OpcodeRow) (hr : r ∈ opcodeTable) (hm : r.mnemonic = OwnRow.mnemonic i)
    (hs : encode i &&& r.mask = r.pattern) (hb : r.build (encode i) = i) : OwnRow.Statement i :=
  ⟨r, hr, hm, by simp [OpcodeRow.selects, hs], hb⟩

theorem OwnRow.mem_control {r : OpcodeRow} (h : r ∈ opcodeRowsControl) : r ∈ opcodeTable := by
  simp [opcodeTable, h]
theorem OwnRow.mem_alu {r : OpcodeRow} (h : r ∈ opcodeRowsAlu) : r ∈ opcodeTable := by
  simp [opcodeTable, h]
theorem OwnRow.mem_middle {r : OpcodeRow} (h : r ∈ opcodeRowsMiddle) : r ∈ opcodeTable := by
  simp [opcodeTable, h]
theorem OwnRow.mem_x {r : OpcodeRow} (h : r ∈ opcodeRowsX) : r ∈ opcodeTable := by
  simp [opcodeTable, h]

theorem OwnRow.cls : OwnRow.Statement (.cls) :=
  OwnRow.of_mem _ opcodeRowsControl[0] (OwnRow.mem_control (List.getElem_mem _)) rfl (by decide) rfl
theorem OwnRow.ret : OwnRow.Statement (.ret) :=
  OwnRow.of_mem _ opcodeRowsControl[1] (OwnRow.mem_control (List.getElem_mem _)) rfl (by decide) rfl
theorem OwnRow.sys (nnn : Imm12) : OwnRow.Statement (.sys nnn) :=
  OwnRow.of_mem _ opcodeRowsControl[2] (OwnRow.mem_control (List.getElem_mem _)) rfl (mask_F000_formatA ..) (by simp [opcodeRowsControl, encode])
theorem OwnRow.jp (nnn : Imm12) : OwnRow.Statement (.jp nnn) :=
  OwnRow.of_mem _ opcodeRowsControl[3] (OwnRow.mem_control (List.getElem_mem _)) rfl (mask_F000_formatA ..) (by simp [opcodeRowsControl, encode])
theorem OwnRow.call (nnn : Imm12) : OwnRow.Statement (.call nnn) :=
  OwnRow.of_mem _ opcodeRowsControl[4] (OwnRow.mem_control (List.getElem_mem _)) rfl (mask_F000_formatA ..) (by simp [opcodeRowsControl, encode])
theorem OwnRow.seImm (x : Nibble) (kk : Byte) : OwnRow.Statement (.seImm x kk) :=
  OwnRow.of_mem _ opcodeRowsControl[5] (OwnRow.mem_control (List.getElem_mem _)) rfl (mask_F000_formatXK ..) (by simp [opcodeRowsControl, encode])
theorem OwnRow.sneImm (x : Nibble) (kk : Byte) : OwnRow.Statement (.sneImm x kk) :=
  OwnRow.of_mem _ opcodeRowsControl[6] (OwnRow.mem_control (List.getElem_mem _)) rfl (mask_F000_formatXK ..) (by simp [opcodeRowsControl, encode])
theorem OwnRow.seReg (x : Nibble) (y : Nibble) : OwnRow.Statement (.seReg x y) :=
  OwnRow.of_mem _ opcodeRowsControl[7] (OwnRow.mem_control (List.getElem_mem _)) rfl (mask_F00F_formatXYN ..) (by simp [opcodeRowsControl, encode])
theorem OwnRow.ldImm (x : Nibble) (kk : Byte) : OwnRow.Statement (.ldImm x kk) :=
  OwnRow.of_mem _ opcodeRowsControl[8] (OwnRow.mem_control (List.getElem_mem _)) rfl (mask_F000_formatXK ..) (by simp [opcodeRowsControl, encode])
theorem OwnRow.addImm (x : Nibble) (kk : Byte) : OwnRow.Statement (.addImm x kk) :=
  OwnRow.of_mem _ opcodeRowsControl[9] (OwnRow.mem_control (List.getElem_mem _)) rfl (mask_F000_formatXK ..) (by simp [opcodeRowsControl, encode])
theorem OwnRow.ldReg (x : Nibble) (y : Nibble) : OwnRow.Statement (.ldReg x y) :=
  OwnRow.of_mem _ opcodeRowsAlu[0] (OwnRow.mem_alu (List.getElem_mem _)) rfl (mask_F00F_formatXYN ..) (by simp [opcodeRowsAlu, encode])
theorem OwnRow.orReg (x : Nibble) (y : Nibble) : OwnRow.Statement (.orReg x y) :=
  OwnRow.of_mem _ opcodeRowsAlu[1] (OwnRow.mem_alu (List.getElem_mem _)) rfl (mask_F00F_formatXYN ..) (by simp [opcodeRowsAlu, encode])
theorem OwnRow.andReg (x : Nibble) (y : Nibble) : OwnRow.Statement (.andReg x y) :=
  OwnRow.of_mem _ opcodeRowsAlu[2] (OwnRow.mem_alu (List.getElem_mem _)) rfl (mask_F00F_formatXYN ..) (by simp [opcodeRowsAlu, encode])
theorem OwnRow.xorReg (x : Nibble) (y : Nibble) : OwnRow.Statement (.xorReg x y) :=
  OwnRow.of_mem _ opcodeRowsAlu[3] (OwnRow.mem_alu (List.getElem_mem _)) rfl (mask_F00F_formatXYN ..) (by simp [opcodeRowsAlu, encode])
theorem OwnRow.addReg (x : Nibble) (y : Nibble) : OwnRow.Statement (.addReg x y) :=
  OwnRow.of_mem _ opcodeRowsAlu[4] (OwnRow.mem_alu (List.getElem_mem _)) rfl (mask_F00F_formatXYN ..) (by simp [opcodeRowsAlu, encode])
theorem OwnRow.subReg (x : Nibble) (y : Nibble) : OwnRow.Statement (.subReg x y) :=
  OwnRow.of_mem _ opcodeRowsAlu[5] (OwnRow.mem_alu (List.getElem_mem _)) rfl (mask_F00F_formatXYN ..) (by simp [opcodeRowsAlu, encode])
theorem OwnRow.shr (x : Nibble) (y : Nibble) : OwnRow.Statement (.shr x y) :=
  OwnRow.of_mem _ opcodeRowsAlu[6] (OwnRow.mem_alu (List.getElem_mem _)) rfl (mask_F00F_formatXYN ..) (by simp [opcodeRowsAlu, encode])
theorem OwnRow.subn (x : Nibble) (y : Nibble) : OwnRow.Statement (.subn x y) :=
  OwnRow.of_mem _ opcodeRowsAlu[7] (OwnRow.mem_alu (List.getElem_mem _)) rfl (mask_F00F_formatXYN ..) (by simp [opcodeRowsAlu, encode])
theorem OwnRow.shl (x : Nibble) (y : Nibble) : OwnRow.Statement (.shl x y) :=
  OwnRow.of_mem _ opcodeRowsAlu[8] (OwnRow.mem_alu (List.getElem_mem _)) rfl (mask_F00F_formatXYN ..) (by simp [opcodeRowsAlu, encode])
theorem OwnRow.sneReg (x : Nibble) (y : Nibble) : OwnRow.Statement (.sneReg x y) :=
  OwnRow.of_mem _ opcodeRowsMiddle[0] (OwnRow.mem_middle (List.getElem_mem _)) rfl (mask_F00F_formatXYN ..) (by simp [opcodeRowsMiddle, encode])
theorem OwnRow.ldI (nnn : Imm12) : OwnRow.Statement (.ldI nnn) :=
  OwnRow.of_mem _ opcodeRowsMiddle[1] (OwnRow.mem_middle (List.getElem_mem _)) rfl (mask_F000_formatA ..) (by simp [opcodeRowsMiddle, encode])
theorem OwnRow.jpV0 (nnn : Imm12) : OwnRow.Statement (.jpV0 nnn) :=
  OwnRow.of_mem _ opcodeRowsMiddle[2] (OwnRow.mem_middle (List.getElem_mem _)) rfl (mask_F000_formatA ..) (by simp [opcodeRowsMiddle, encode])
theorem OwnRow.rnd (x : Nibble) (kk : Byte) : OwnRow.Statement (.rnd x kk) :=
  OwnRow.of_mem _ opcodeRowsMiddle[3] (OwnRow.mem_middle (List.getElem_mem _)) rfl (mask_F000_formatXK ..) (by simp [opcodeRowsMiddle, encode])
theorem OwnRow.drw (x : Nibble) (y : Nibble) (n : Nibble) : OwnRow.Statement (.drw x y n) :=
  OwnRow.of_mem _ opcodeRowsMiddle[4] (OwnRow.mem_middle (List.getElem_mem _)) rfl (mask_F000_formatXYN ..) (by simp [opcodeRowsMiddle, encode])
theorem OwnRow.skp (x : Nibble) : OwnRow.Statement (.skp x) :=
  OwnRow.of_mem _ opcodeRowsMiddle[5] (OwnRow.mem_middle (List.getElem_mem _)) rfl (mask_F0FF_formatXK ..) (by simp [opcodeRowsMiddle, encode])
theorem OwnRow.sknp (x : Nibble) : OwnRow.Statement (.sknp x) :=
  OwnRow.of_mem _ opcodeRowsMiddle[6] (OwnRow.mem_middle (List.getElem_mem _)) rfl (mask_F0FF_formatXK ..) (by simp [opcodeRowsMiddle, encode])
theorem OwnRow.ldVxDt (x : Nibble) : OwnRow.Statement (.ldVxDt x) :=
  OwnRow.of_mem _ opcodeRowsX[0] (OwnRow.mem_x (List.getElem_mem _)) rfl (mask_F0FF_formatXK ..) (by simp [opcodeRowsX, encode])
theorem OwnRow.ldVxK (x : Nibble) : OwnRow.Statement (.ldVxK x) :=
  OwnRow.of_mem _ opcodeRowsX[1] (OwnRow.mem_x (List.getElem_mem _)) rfl (mask_F0FF_formatXK ..) (by simp [opcodeRowsX, encode])
theorem OwnRow.ldDtVx (x : Nibble) : OwnRow.Statement (.ldDtVx x) :=
  OwnRow.of_mem _ opcodeRowsX[2] (OwnRow.mem_x (List.getElem_mem _)) rfl (mask_F0FF_formatXK ..) (by simp [opcodeRowsX, encode])
theorem OwnRow.ldStVx (x : Nibble) : OwnRow.Statement (.ldStVx x) :=
  OwnRow.of_mem _ opcodeRowsX[3] (OwnRow.mem_x (List.getElem_mem _)) rfl (mask_F0FF_formatXK ..) (by simp [opcodeRowsX, encode])
theorem OwnRow.addI (x : Nibble) : OwnRow.Statement (.addI x) :=
  OwnRow.of_mem _ opcodeRowsX[4] (OwnRow.mem_x (List.getElem_mem _)) rfl (mask_F0FF_formatXK ..) (by simp [opcodeRowsX, encode])
theorem OwnRow.ldF (x : Nibble) : OwnRow.Statement (.ldF x) :=
  OwnRow.of_mem _ opcodeRowsX[5] (OwnRow.mem_x (List.getElem_mem _)) rfl (mask_F0FF_formatXK ..) (by simp [opcodeRowsX, encode])
theorem OwnRow.ldB (x : Nibble) : OwnRow.Statement (.ldB x) :=
  OwnRow.of_mem _ opcodeRowsX[6] (OwnRow.mem_x (List.getElem_mem _)) rfl (mask_F0FF_formatXK ..) (by simp [opcodeRowsX, encode])
theorem OwnRow.ldMemVx (x : Nibble) : OwnRow.Statement (.ldMemVx x) :=
  OwnRow.of_mem _ opcodeRowsX[7] (OwnRow.mem_x (List.getElem_mem _)) rfl (mask_F0FF_formatXK ..) (by simp [opcodeRowsX, encode])
theorem OwnRow.ldVxMem (x : Nibble) : OwnRow.Statement (.ldVxMem x) :=
  OwnRow.of_mem _ opcodeRowsX[8] (OwnRow.mem_x (List.getElem_mem _)) rfl (mask_F0FF_formatXK ..) (by simp [opcodeRowsX, encode])
theorem OwnRow.unsupported (w : Word) : OwnRow.Statement (.unsupported w) :=
  OwnRow.of_mem _ opcodeRowsX[9] (OwnRow.mem_x (List.getElem_mem _)) rfl (by simp [opcodeRowsX]) rfl

end Sys2Proof.Laws
end

