-- ==== Sys2Proof/Laws/Schedule.lean ====
section
/-! SUPPORT. The block does not see the driving loop's schedule: every instruction answers the same whatever is still to be
issued (00_scope.md R5). -/

namespace Sys2Proof.Machine

/-- The same outcome, another schedule in the state it leaves. -/
def keepSchedule (es : List Event) : Result → Result
  | .next t => .next (t.setSchedule es)
  | .fault r => .fault r
  | .refused r => .refused r

variable (s : State) (es : List Event)

theorem raise_setSchedule (e : Error) : raise e (s.setSchedule es) = keepSchedule es (raise e s) := rfl

theorem withinMemory_setSchedule (a : Nat) (body : Result) :
    withinMemory a (s.setSchedule es) (keepSchedule es body) = keepSchedule es (withinMemory a s body) := by
  rcases withinMemory_cases s a body with ⟨h, e⟩ | ⟨h, e⟩
  · rw [e, withinMemory_of_lt (s.setSchedule es) _ _ h]
  · rw [e, withinMemory_of_le (s.setSchedule es) _ _ h]; rfl

theorem skipIf_setSchedule (c : Bool) : skipIf c (s.setSchedule es) = (skipIf c s).setSchedule es := by
  cases c <;> rfl

theorem setRegsFrom_setSchedule (j : Nat) (bs : List Byte) :
    (s.setSchedule es).setRegsFrom j bs = (s.setRegsFrom j bs).setSchedule es := by
  induction bs generalizing s j with
  | nil => rfl
  | cons b rest ih => exact ih (s.setV _ b) (j + 1)

theorem drawRequest_setSchedule (w : Word) (vx vy : Byte) (rows : List Byte) :
    drawRequest w vx vy rows (s.setSchedule es) = keepSchedule es (drawRequest w vx vy rows s) := by
  unfold drawRequest
  rw [State.setSchedule_screen]
  cases drawAnswer s.screen vx vy rows <;> rfl

/-- No instruction reads or writes the schedule. -/
theorem exec_setSchedule (i : Instr) : exec i (s.setSchedule es) = keepSchedule es (exec i s) := by
  cases i <;> simp only [exec]
  case ret =>
    by_cases h : s.cpu.sp = 0x0#4
    · simp only [execRet, pop_of_empty s h, pop_of_empty (s.setSchedule es) h]; rfl
    · simp only [execRet, pop_of_not_empty s h, pop_of_not_empty (s.setSchedule es) h]
      exact withinMemory_setSchedule s es _ (.next ((s.setSp _).setPc _))
  case call =>
    by_cases h : s.cpu.sp = 0xF#4
    · simp only [execCall, push_of_full s _ h, push_of_full (s.setSchedule es) _ h]; rfl
    · simp only [execCall, push_of_not_full s _ h, push_of_not_full (s.setSchedule es) _ h]
      exact withinMemory_setSchedule s es _ (.next (((s.setSp _).setStackEntry _ _).setPc _))
  case jp => exact withinMemory_setSchedule s es _ (.next (s.setPc _))
  case jpV0 => exact withinMemory_setSchedule s es _ (.next (s.setPc _))
  case ldB x =>
    exact withinMemory_setSchedule s es _ (.next (s.writeBytes (effAddr s 0) (decimalDigits (s.getV x))))
  case ldMemVx => exact withinMemory_setSchedule s es _ (.next (s.writeBytes _ _))
  case ldVxMem =>
    unfold execLdVxMem
    rw [setRegsFrom_setSchedule]
    exact withinMemory_setSchedule s es _ (.next _)
  case skp => unfold execSkp; rw [State.setSchedule_getV]; split; rfl; rw [skipIf_setSchedule]; rfl
  case sknp => unfold execSknp; rw [State.setSchedule_getV]; split; rfl; rw [skipIf_setSchedule]; rfl
  case ldF => unfold execLdF; rw [State.setSchedule_getV]; split <;> rfl
  case ldVxK =>
    unfold execLdVxK
    rw [show leastPressed (s.setSchedule es) = leastPressed s from rfl]
    split <;> rfl
  case drw =>
    unfold execDrw
    simp only [drawRequest_setSchedule]
    split
    · rfl
    · exact withinMemory_setSchedule s es _ _
  case seImm => exact congrArg _ (skipIf_setSchedule s es _)
  case sneImm => exact congrArg _ (skipIf_setSchedule s es _)
  case seReg => exact congrArg _ (skipIf_setSchedule s es _)
  case sneReg => exact congrArg _ (skipIf_setSchedule s es _)
  all_goals rfl

/-- The driving loop's reaction adds to the schedule under the policy `reset` only. -/
theorem driverReacts_setSchedule (h : s.driver.policy ≠ .reset) :
    driverReacts (s.setSchedule es) = keepSchedule es (driverReacts s) := by
  unfold driverReacts
  rw [State.setSchedule_driver_answer, State.setSchedule_driver_policy]
  split
  · rfl
  · split
    · rfl
    · exact absurd ‹_› h
    · rfl

end Sys2Proof.Machine
end

