-- ==== Sys2Proof/Tests/Slice0.lean ====
section
/-! SUPPORT. The model's own tests: the ill-formed terms, words written out from the encodings of 30_encoding.md R40, the
vectors of spec/95_test_vectors.md one step each, and the states that meet the hypotheses of the obligations. -/

namespace Sys2Proof.Tests

open Sys2Proof.Machine Sys2Proof.Safety

/-! ## Helpers -/

/-- Right after reset, a driving loop that issues nothing but `Step`. -/
def stepping : State := stepsNext State.reset

/-- The same at the address the test vectors fetch from (95_test_vectors.md 2.2). -/
def base : State := stepping.setPc 0x200#16

/-- The word `w` at `pc` of `s`, one `Step`. -/
def run1 (w : Nat) (s : State) : Result := step (s.withFetchWord 16 w)

/-- The outcome is a next state with the answer `Ok` that meets `p`. -/
def okWith (r : Result) (p : State → Bool) : Bool :=
  match r with
  | .next t => t.driver.answer = .ok && p t
  | .fault _ => false
  | .refused _ => false

/-- The outcome is a next state with the error `e` that meets `p`. -/
def errWith (r : Result) (e : Error) (p : State → Bool) : Bool :=
  match r with
  | .next t => t.driver.answer = .error e && p t
  | .fault _ => false
  | .refused _ => false

/-- `s` with another MEM_LEN. -/
def withMemLen (n : Nat) (s : State) : State := { s with params := { s.params with memLen := n } }

/-- `s` with another policy of the driving loop. -/
def withPolicy (p : Policy) (s : State) : State := { s with driver := { s.driver with policy := p } }

/-- The reference screen's pixel, off for any other screen. -/
def pix (s : State) (col row : Nat) : Bool :=
  match s.screen with
  | .reference p => pixelAt p col row
  | .external _ => false

/-! ## Well-formedness -/

/-- `00E0` is `CLS`, so no `SYS` carries its field (R39). -/
theorem test_sys_of_cls_refused : (Instr.sys 0x0E0#12).wellFormed = false := by decide
/-- `00EE` is `RET` (R39). -/
theorem test_sys_of_ret_refused : (Instr.sys 0x0EE#12).wellFormed = false := by decide
/-- An assigned word is no `UNSUPPORTED` (R41): `LD VA, 0x42`. -/
theorem test_unsupported_of_assigned_refused : (Instr.unsupported 0x6A42#16).wellFormed = false := by decide
/-- A word with `op = 0` is `SYS`, not `UNSUPPORTED` (R41). -/
theorem test_unsupported_of_sys_refused : (Instr.unsupported 0x0000#16).wellFormed = false := by decide
/-- Well-formed terms of the two constrained constructors (R41). -/
theorem test_constrained_terms_accepted :
    (Instr.sys 0x0E1#12).wellFormed = true ∧ (Instr.unsupported 0x5AB1#16).wellFormed = true := by decide

/-! ## Decoding: words written bit by bit, `op x y n` (R36, R37, R40) -/

/-- Control flow rows of R40. -/
theorem test_decode_control :
    decodeWord 0b0000000011100000#16 = .cls ∧ decodeWord 0b0000000011101110#16 = .ret ∧
    decodeWord 0b0000000011100001#16 = .sys 0x0E1#12 ∧ decodeWord 0b0001101010111100#16 = .jp 0xABC#12 ∧
    decodeWord 0b0010101010111100#16 = .call 0xABC#12 ∧ decodeWord 0b0011101001000010#16 = .seImm 10#4 0x42#8 ∧
    decodeWord 0b0100101001000010#16 = .sneImm 10#4 0x42#8 ∧ decodeWord 0b0101101010110000#16 = .seReg 10#4 11#4 ∧
    decodeWord 0b1001101010110000#16 = .sneReg 10#4 11#4 ∧ decodeWord 0b1011000100100011#16 = .jpV0 0x123#12 := by
  decide

/-- Arithmetic and logic rows of R40. -/
theorem test_decode_alu :
    decodeWord 0b0110101001000010#16 = .ldImm 10#4 0x42#8 ∧ decodeWord 0b0111101001000010#16 = .addImm 10#4 0x42#8 ∧
    decodeWord 0b1000101010110000#16 = .ldReg 10#4 11#4 ∧ decodeWord 0b1000101010110001#16 = .orReg 10#4 11#4 ∧
    decodeWord 0b1000101010110010#16 = .andReg 10#4 11#4 ∧ decodeWord 0b1000101010110011#16 = .xorReg 10#4 11#4 ∧
    decodeWord 0b1000101010110100#16 = .addReg 10#4 11#4 ∧ decodeWord 0b1000101010110101#16 = .subReg 10#4 11#4 ∧
    decodeWord 0b1000101010110110#16 = .shr 10#4 11#4 ∧ decodeWord 0b1000101010110111#16 = .subn 10#4 11#4 ∧
    decodeWord 0b1000101010111110#16 = .shl 10#4 11#4 ∧ decodeWord 0b1100000111111111#16 = .rnd 1#4 0xFF#8 := by
  decide

/-- Index, memory and display rows of R40. -/
theorem test_decode_index_memory_display :
    decodeWord 0b1010000100100011#16 = .ldI 0x123#12 ∧ decodeWord 0b1101000100100101#16 = .drw 1#4 2#4 5#4 ∧
    decodeWord 0b1111101000011110#16 = .addI 10#4 ∧ decodeWord 0b1111101000101001#16 = .ldF 10#4 ∧
    decodeWord 0b1111101000110011#16 = .ldB 10#4 ∧ decodeWord 0b1111001001010101#16 = .ldMemVx 2#4 ∧
    decodeWord 0b1111001001100101#16 = .ldVxMem 2#4 := by
  decide

/-- Keypad and timer rows of R40. -/
theorem test_decode_keypad_timers :
    decodeWord 0b1110101010011110#16 = .skp 10#4 ∧ decodeWord 0b1110101010100001#16 = .sknp 10#4 ∧
    decodeWord 0b1111101000000111#16 = .ldVxDt 10#4 ∧ decodeWord 0b1111101000001010#16 = .ldVxK 10#4 ∧
    decodeWord 0b1111101000010101#16 = .ldDtVx 10#4 ∧ decodeWord 0b1111101000011000#16 = .ldStVx 10#4 := by
  decide

/-- Reserved words do not fall through to a neighbour (R41; 95_test_vectors.md 2.1, the words marked `U`). -/
theorem test_decode_reserved :
    decodeWord 0x5AB1#16 = .unsupported 0x5AB1#16 ∧ decodeWord 0x8AB8#16 = .unsupported 0x8AB8#16 ∧
    decodeWord 0x8ABF#16 = .unsupported 0x8ABF#16 ∧ decodeWord 0x9AB1#16 = .unsupported 0x9AB1#16 ∧
    decodeWord 0xE09F#16 = .unsupported 0xE09F#16 ∧ decodeWord 0xE1A0#16 = .unsupported 0xE1A0#16 ∧
    decodeWord 0xF000#16 = .unsupported 0xF000#16 ∧ decodeWord 0xF075#16 = .unsupported 0xF075#16 ∧
    decodeWord 0xFFFF#16 = .unsupported 0xFFFF#16 := by
  decide

/-- Bytes: the high byte first (R26, S11), two bytes an instruction, a shorter piece refused by name. -/
theorem test_decode_bytes :
    decode [0xA2#8, 0xF0#8, 0x77#8] = .ok (.ldI 0x2F0#12, [0x77#8]) ∧ decode [0xA2#8] = .error .truncated ∧
    decode [] = .error .truncated := by decide

/-- Encodings from R37 and R40; a `SYS` word is its field (R51). -/
theorem test_encode_words :
    encode (.drw 1#4 2#4 5#4) = 0xD125#16 ∧ encode (.shl 10#4 11#4) = 0x8ABE#16 ∧ encode (.sys 0x123#12) = 0x0123#16 ∧
    encode (.ldMemVx 15#4) = 0xFF55#16 ∧ encodeBytes (.ldI 0x2F0#12) = [0xA2#8, 0xF0#8] := by decide

/-- Table bits: bit 0 is the least significant bit of the word, which is stored high byte first. -/
theorem test_decode_table_word :
    decodeTableWord 16 0x8ABE = some (.shl 10#4 11#4) ∧ decodeTableWord 16 0xFFFF = some (.unsupported 0xFFFF#16) := by
  decide

/-! ## Fetch and step (95_test_vectors.md 2.1) -/

/-- S9 as a whole step from reset. -/
theorem test_step_s9 : okWith (run1 0xA2F0 stepping) (fun t => t.cpu.pc = 2#16 && t.cpu.i = 0x2F0#16) = true := by
  decide
/-- An odd `pc` is fetched from (R28). -/
theorem test_step_odd_pc : okWith (run1 0x6A42 (stepping.setPc 0x201#16))
    (fun t => t.cpu.pc = 0x203#16 && t.getV 10#4 = 0x42#8) = true := by decide
/-- Blank memory: `UnsupportedOperation(0x0000)`, `pc = 2`. -/
theorem test_step_from_reset :
    errWith (step stepping) (.unsupportedOperation 0x0000#16) (fun t => t.cpu.pc = 2#16) = true := by decide
/-- `pc = 0xFFFF`: the exact sum `pc + 1 = 65536` (R8). -/
theorem test_step_fetch_bound : errWith (step (stepping.setPc 0xFFFF#16)) (.addressOutOfBounds 65536 4096)
    (fun t => t.cpu.pc = 0xFFFF#16) = true := by decide
/-- `MEM_LEN = 65536`: `pc` wraps to 0 (R13). -/
theorem test_step_pc_wraps : okWith (run1 0x6007 (withMemLen 65536 (stepping.setPc 0xFFFE#16)))
    (fun t => t.cpu.pc = 0x0000#16 && t.getV 0#4 = 0x07#8) = true := by decide
/-- The three policies after an error (R102). -/
theorem test_policy_halt : step (withPolicy .halt stepping) = .fault (.halted (.unsupportedOperation 0#16)) := by rfl
/-- A Reset event is scheduled. -/
theorem test_policy_reset : errWith (step (withPolicy .reset stepping)) (.unsupportedOperation 0#16)
    (fun t => t.driver.schedule = [.reset]) = true := by decide

/-! ## Control flow (95_test_vectors.md 2.2), at 0x200 -/

theorem test_jp : okWith (run1 0x1FFF base) (fun t => t.cpu.pc = 0xFFF#16) = true := by decide
theorem test_jp_out : errWith (run1 0x1800 (withMemLen 2048 base)) (.addressOutOfBounds 2048 2048)
    (fun t => t.cpu.pc = 0x202#16) = true := by decide
theorem test_call : okWith (run1 0x2300 (base.setSp 14#4))
    (fun t => t.cpu.sp = 15#4 && t.stackEntry 15#4 = 0x202#16 && t.cpu.pc = 0x300#16) = true := by decide
/-- The overflow is tested before the target (R100). -/
theorem test_call_overflow_first : errWith (run1 0x2800 (withMemLen 2048 (base.setSp 15#4))) (.stackOverflow 15)
    (fun t => t.cpu.pc = 0x202#16 && t.cpu.sp = 15#4) = true := by decide
theorem test_ret : okWith (run1 0x00EE ((base.setSp 2#4).setStackEntry 2#4 0x456#16))
    (fun t => t.cpu.sp = 1#4 && t.cpu.pc = 0x456#16 && t.stackEntry 2#4 = 0x456#16) = true := by decide
theorem test_ret_out : errWith (run1 0x00EE ((base.setSp 1#4).setStackEntry 1#4 0x1000#16))
    (.addressOutOfBounds 4096 4096) (fun t => t.cpu.sp = 1#4 && t.cpu.pc = 0x202#16) = true := by decide
theorem test_se_imm : okWith (run1 0x3A42 (base.setV 10#4 0x42#8)) (fun t => t.cpu.pc = 0x204#16) = true := by decide
theorem test_sne_imm : okWith (run1 0x4A42 (base.setV 10#4 0x42#8)) (fun t => t.cpu.pc = 0x202#16) = true := by decide
theorem test_se_reg : okWith (run1 0x5AB0 ((base.setV 10#4 9#8).setV 11#4 9#8))
    (fun t => t.cpu.pc = 0x204#16) = true := by decide
theorem test_sne_reg : okWith (run1 0x9AB0 ((base.setV 10#4 9#8).setV 11#4 8#8))
    (fun t => t.cpu.pc = 0x204#16) = true := by decide
theorem test_jp_v0 : okWith (run1 0xB300 (base.setV 0#4 4#8)) (fun t => t.cpu.pc = 0x304#16) = true := by decide
theorem test_jp_v0_out : errWith (run1 0xBFFF (base.setV 0#4 0xFF#8)) (.addressOutOfBounds 4350 4096)
    (fun t => t.cpu.pc = 0x202#16) = true := by decide
theorem test_sys : errWith (run1 0x0123 base) (.unsupportedOperation 0x0123#16) (fun t => t.cpu.pc = 0x202#16) = true := by
  decide
theorem test_unsupported : errWith (run1 0x5AB1 base) (.unsupportedOperation 0x5AB1#16)
    (fun t => t.cpu.pc = 0x202#16) = true := by decide

/-! ## Arithmetic and logic (95_test_vectors.md 2.3) -/

theorem test_ld_imm : okWith (run1 0x6F07 base) (fun t => t.getV 15#4 = 0x07#8) = true := by decide
/-- No carry flag. -/
theorem test_add_imm : okWith (run1 0x7A01 (base.setV 10#4 0xFF#8))
    (fun t => t.getV 10#4 = 0x00#8 && t.getV 15#4 = 0x00#8) = true := by decide
theorem test_ld_reg : okWith (run1 0x8AB0 (base.setV 11#4 0x33#8)) (fun t => t.getV 10#4 = 0x33#8) = true := by decide

/-- `VA = a`, `VB = b`, `VF = f`. -/
def abf (a b f : Byte) : State := ((base.setV 10#4 a).setV 11#4 b).setV 15#4 f

/-- After the word, `VA = a` and `VF = f`. -/
def leaves (r : Result) (a f : Byte) : Bool := okWith r (fun t => t.getV 10#4 = a && t.getV 15#4 = f)

theorem test_or : leaves (run1 0x8AB1 (abf 0xF0#8 0x0C#8 1#8)) 0xFC#8 1#8 = true := by decide
theorem test_and : leaves (run1 0x8AB2 (abf 0xF0#8 0x3C#8 1#8)) 0x30#8 1#8 = true := by decide
theorem test_xor : leaves (run1 0x8AB3 (abf 0xF0#8 0x3C#8 1#8)) 0xCC#8 1#8 = true := by decide
theorem test_add : leaves (run1 0x8AB4 (abf 0xFF#8 0xFF#8 0#8)) 0xFE#8 1#8 = true := by decide
/-- The flag wins over the result in `VF`. -/
theorem test_add_into_vf : okWith (run1 0x8FB4 (abf 0#8 2#8 1#8)) (fun t => t.getV 15#4 = 0#8) = true := by decide
theorem test_sub : leaves (run1 0x8AB5 (abf 0x03#8 0x05#8 1#8)) 0xFE#8 0#8 = true := by decide
/-- The old `VF` is the subtrahend. -/
theorem test_sub_vf_operand : leaves (run1 0x8AF5 (abf 0x05#8 0#8 0x06#8)) 0xFF#8 0#8 = true := by decide
theorem test_subn : leaves (run1 0x8AB7 (abf 0x03#8 0x05#8 0#8)) 0x02#8 1#8 = true := by decide
theorem test_subn_borrow : leaves (run1 0x8AB7 (abf 0x05#8 0x03#8 1#8)) 0xFE#8 0#8 = true := by decide
/-- In place: `VB` is not used. -/
theorem test_shr : leaves (run1 0x8AB6 (abf 0x05#8 0xF0#8 0#8)) 0x02#8 1#8 = true := by decide
theorem test_shl : leaves (run1 0x8ABE (abf 0x81#8 0x0F#8 0#8)) 0x02#8 1#8 = true := by decide
theorem test_shl_into_vf : okWith (run1 0x8FBE (abf 0#8 0#8 0x7F#8)) (fun t => t.getV 15#4 = 0#8) = true := by decide
/-- `RND VA, 0x00` gives 0 whatever the draw. -/
theorem test_rnd : ∃ t, exec (.rnd 10#4 0x00#8) base = .next t ∧ t.getV 10#4 = 0x00#8 :=
  ⟨_, rfl, by simp [State.getV, State.setV, State.countRnd]⟩

/-! ## Index register and memory (95_test_vectors.md 2.4) -/

theorem test_ld_i : okWith (run1 0xAFFF base) (fun t => t.cpu.i = 0x0FFF#16) = true := by decide
theorem test_add_i : okWith (run1 0xFA1E ((base.setI 0xFFFF#16).setV 10#4 2#8))
    (fun t => t.cpu.i = 1#16 && t.getV 15#4 = 0#8) = true := by decide
theorem test_ld_f : okWith (run1 0xFA29 (base.setV 10#4 0x0F#8)) (fun t => t.cpu.i = 0x009B#16) = true := by decide
theorem test_ld_f_digit_16 : errWith (run1 0xFA29 (base.setV 10#4 0x10#8)) (.unsupportedOperation 0xFA29#16)
    (fun t => t.cpu.i = 0#16) = true := by decide
theorem test_ld_b : okWith (run1 0xFA33 ((base.setI 0xFFD#16).setV 10#4 0xFF#8))
    (fun t => t.readBytes 0xFFD 3 = [2#8, 5#8, 5#8]) = true := by decide
theorem test_ld_b_out : errWith (run1 0xFA33 ((base.setI 0xFFE#16).setV 10#4 0xFF#8)) (.addressOutOfBounds 4096 4096)
    (fun t => t.readByte 0xFFE = 0#8) = true := by decide
theorem test_store : okWith (run1 0xF255 ((abf 0#8 0#8 0#8).setI 0x400#16 |>.setV 0#4 0x11#8 |>.setV 1#4 0x22#8 |>.setV 2#4 0x33#8))
    (fun t => t.readBytes 0x400 4 = [0x11#8, 0x22#8, 0x33#8, 0x00#8] && t.cpu.i = 0x400#16) = true := by decide
/-- No byte is written, not even the one inside memory. -/
theorem test_store_out : errWith (run1 0xF155 ((base.setI 0xFFF#16).setV 0#4 0xAB#8)) (.addressOutOfBounds 4096 4096)
    (fun t => t.readByte 0xFFF = 0#8) = true := by decide
theorem test_load : okWith (run1 0xF265 ((base.writeBytes 0x400 [0x11#8, 0x22#8, 0x33#8, 0x44#8]).setI 0x400#16))
    (fun t => t.getV 0#4 = 0x11#8 && t.getV 1#4 = 0x22#8 && t.getV 2#4 = 0x33#8 && t.getV 3#4 = 0#8) = true := by decide
theorem test_load_out : errWith (run1 0xFF65 (base.setI 0xFFFF#16)) (.addressOutOfBounds 65550 4096)
    (fun t => t.cpu.i = 0xFFFF#16) = true := by decide

/-! ## Display (95_test_vectors.md 2.5) -/

/-- One pixel on at (0,0), `VF = 1`, `I = 0x300`. -/
def drawn : State := ((State.setScreen base (.reference (togglePixel pixelsOff 0 0))).setV 15#4 1#8).setI 0x300#16

theorem test_cls : okWith (run1 0x00E0 drawn) (fun t => !pix t 0 0 && t.getV 15#4 = 1#8) = true := by decide
/-- The start position wraps modulo 64 and 32. -/
theorem test_drw_wraps : okWith (run1 0xD011 (((drawn.writeByte 0x300 0x80#8).setV 0#4 0xFF#8).setV 1#4 0xFF#8))
    (fun t => pix t 63 31 && pix t 0 0 && t.getV 15#4 = 0#8) = true := by decide
/-- A pixel goes from on to off; the next ones go on. -/
theorem test_drw_collides : okWith (run1 0xD011 (drawn.writeByte 0x300 0xF0#8))
    (fun t => !pix t 0 0 && pix t 1 0 && pix t 3 0 && !pix t 4 0 && t.getV 15#4 = 1#8) = true := by decide

/-! ## Keypad and timers (95_test_vectors.md 2.6) -/

theorem test_skp : okWith (run1 0xEA9E ((base.setV 10#4 15#8).setKey 15#4 true)) (fun t => t.cpu.pc = 0x204#16) = true := by
  decide
theorem test_skp_key_16 : errWith (run1 0xEA9E (base.setV 10#4 16#8)) (.unsupportedOperation 0xEA9E#16)
    (fun t => t.cpu.pc = 0x202#16) = true := by decide
theorem test_sknp : okWith (run1 0xEAA1 (base.setKey 0#4 true)) (fun t => t.cpu.pc = 0x202#16) = true := by decide
theorem test_sknp_key_255 : errWith (run1 0xEAA1 (base.setV 10#4 0xFF#8)) (.unsupportedOperation 0xEAA1#16)
    (fun t => t.cpu.pc = 0x202#16) = true := by decide
theorem test_ld_k_waits : okWith (run1 0xFA0A base) (fun t => t.cpu.pc = 0x200#16 && t.getV 10#4 = 0#8) = true := by decide
theorem test_ld_k_least : okWith (run1 0xFA0A ((base.setKey 9#4 true).setKey 7#4 true))
    (fun t => t.cpu.pc = 0x202#16 && t.getV 10#4 = 7#8) = true := by decide
theorem test_ld_vx_dt : okWith (run1 0xFA07 (base.setDt 0x3C#8))
    (fun t => t.getV 10#4 = 0x3C#8 && t.cpu.dt = 0x3C#8) = true := by decide
theorem test_ld_dt_vx : okWith (run1 0xFA15 (base.setV 10#4 0x3C#8)) (fun t => t.cpu.dt = 0x3C#8) = true := by decide
theorem test_ld_st_vx : okWith (run1 0xFA18 (base.setV 10#4 5#8)) (fun t => t.cpu.st = 5#8) = true := by decide

/-! ## Events -/

/-- A timer at 0 stays there, one at 1 goes to 0. -/
theorem test_tick : okWith (step (((base.setDt 1#8).setSt 0#8).setSchedule [.tick]))
    (fun t => t.cpu.dt = 0#8 && t.cpu.st = 0#8 && t.cpu.pc = 0x200#16) = true := by decide
theorem test_key_write : okWith (step (base.setSchedule [.keyWrite 3#4 true]))
    (fun t => t.key 3#4 && !t.key 4#4 && t.cpu.pc = 0x200#16) = true := by decide
theorem test_reset_event : okWith (step (((base.setKey 3#4 true).setDt 9#8).setSchedule [.reset]))
    (fun t => t.cpu = CpuState.zero) = true := by decide
theorem test_host_writes : okWith (step (base.setSchedule [.hostMemWrite 0xFFF 7#8])) (fun t => t.readByte 0xFFF = 7#8) = true ∧
    okWith (step (base.setSchedule [.hostLoadPC 0x345#16])) (fun t => t.cpu.pc = 0x345#16) = true := by decide
/-- Ticks for ever, with no `Step` any more: the second round too (R5). -/
theorem test_ticks_for_ever :
    okWith (runFor 2 ((base.setDt 3#8).setAfterwards (.again .tick []))) (fun t => t.cpu.dt = 1#8 && t.cpu.pc = 0x200#16) = true := by
  decide
/-- From power-on the first event is a free one (R5). -/
theorem test_reset_event_is_free : step State.reset = runEvent (Config.freeEvent 0) (State.reset.setAfterwards (.free 1)) := rfl
/-- The glyph of `F` is the last of the eighty bytes placed at FONT_BASE (R113). -/
theorem test_boot_length : (bootEvents Params.standard [0x60#8, 0x05#8]).length = 84 := by decide
/-- The boot order of R115. -/
theorem test_boot_ends :
    (bootEvents Params.standard [0x60#8, 0x05#8]).head? = some .reset ∧
    (bootEvents Params.standard [0x60#8, 0x05#8]).getLast? = some (.hostLoadPC 0x200#16) := by decide
/-- The codes of R93 (92_eei_decisions.md D7). -/
theorem test_answer_codes : Answer.code .ok = 0 ∧ Answer.code (.error (.stackOverflow 15)) = 1 ∧
    Answer.code (.error .stackUnderflow) = 2 ∧ Answer.code (.error (.addressOutOfBounds 4096 4096)) = 3 ∧
    Answer.code (.error (.unsupportedOperation 0#16)) = 4 := by decide

/-! ## Witnesses: for each obligation with hypotheses a state and operands that meet them, at the boundaries of each clause -/

theorem witness_DecodeOfEncodedBytes :
    (Instr.drw 15#4 15#4 15#4).wellFormed = true ∧ (Instr.sys 0xFFF#12).wellFormed = true ∧
    (Instr.unsupported 0xFFFF#16).wellFormed = true := by decide

/-- Both sides of both equivalences. -/
theorem witness_ReservedWordsDecodeUnsupported :
    reservedWord 0x5001#16 = true ∧ reservedWord 0x5000#16 = false ∧
    decodeWord 0x0FFF#16 = .sys 0xFFF#12 ∧ decodeWord 0x1000#16 = .jp 0x000#12 := by decide

/-- `pc = MEM_LEN - 1` fails, `pc = MEM_LEN - 2` fetches. -/
theorem witness_FetchReadsWordAndAdvances :
    stepping.params.memLen ≤ (stepping.setPc 0xFFF#16).cpu.pc.toNat + 1 ∧
    (stepping.setPc 0xFFE#16).cpu.pc.toNat + 1 < stepping.params.memLen := by decide

/-- A decodable word at `pc`, with nothing but `Step` issued and with a scheduled `Step`. -/
theorem witness_StepRunsDecodedInstruction :
    let s := base.withFetchWord 16 0x8AB4
    s.cpu.pc.toNat + 1 < s.params.memLen ∧ decode (s.readBytes s.cpu.pc.toNat 2) = .ok (.addReg 10#4 11#4, []) ∧
    StepsOnly s ∧ (s.setSchedule [.step, .tick]).driver.schedule = [.step, .tick] ∧ nextEvent s = .step := by decide

theorem witness_ScheduledEventsRunWhole :
    (base.setSchedule [.tick]).driver.schedule = .tick :: [] ∧
    (base.setSchedule [.reset]).driver.schedule = .reset :: [] ∧
    (base.setSchedule [.keyWrite 15#4 true]).driver.schedule = .keyWrite 15#4 true :: [] ∧
    (base.setSchedule [.hostLoadPC 0xFFFF#16]).driver.schedule = .hostLoadPC 0xFFFF#16 :: [] ∧
    (base.setSchedule [.hostMemWrite 0xFFF 1#8]).driver.schedule = .hostMemWrite 0xFFF 1#8 :: [] ∧
    (base.setAfterwards (.again .tick [.step])).driver = ⟨[], .again .tick [.step], .skip, .ok⟩ ∧
    State.reset.driver = ⟨[], .free 0, .skip, .ok⟩ := by decide

/-- The two policies other than reset. -/
theorem witness_EveryInterleavingIsARun :
    base.driver.policy ≠ .reset ∧ (withPolicy .halt base).driver.policy ≠ .reset := by decide

theorem witness_FailedFetchRecurs :
    let s := stepping.setPc 0xFFF#16
    s.params.memLen ≤ s.cpu.pc.toNat + 1 ∧ StepsOnly s ∧ s.driver.policy = .skip := by decide

/-- No error, and an error under each policy. -/
theorem witness_ErrorIsFollowedByPolicy :
    ¬ Faulted stepping ∧
    (withPolicy .skip (base.setAnswer (.error .stackUnderflow))).driver = ⟨[], .steps, .skip, .error .stackUnderflow⟩ ∧
    (withPolicy .reset (base.setAnswer (.error .stackUnderflow))).driver = ⟨[], .steps, .reset, .error .stackUnderflow⟩ ∧
    (withPolicy .halt (base.setAnswer (.error .stackUnderflow))).driver = ⟨[], .steps, .halt, .error .stackUnderflow⟩ :=
  ⟨fun h => h rfl, rfl, rfl, rfl⟩

theorem witness_OnlyHaltOrBadHostWriteStops :
    step (withPolicy .halt stepping) = .fault (.halted (.unsupportedOperation 0#16)) ∧
    step (base.setSchedule [.hostMemWrite 4096 1#8]) = .refused (.hostWriteOutside 4096 4096) := ⟨rfl, rfl⟩

/-- An instruction that answers an error, from an answer `Ok` (for `ErrorsAreThoseListed` and
`FailingInstructionWritesNothing`). -/
theorem witness_error_answer :
    base.driver.answer = .ok ∧ exec .ret base = .next (base.setAnswer (.error .stackUnderflow)) ∧
    (base.setAnswer (.error .stackUnderflow)).driver.answer = .error .stackUnderflow := ⟨rfl, rfl, rfl⟩

theorem witness_LastAnswerIsNeverRead : nextEvent base = .step ∧ nextEvent (base.setSchedule [.step]) = .step := by decide

/-- Full, and one below full. -/
theorem witness_PushIncrementsThenWrites :
    (base.setSp 15#4).cpu.sp = 15#4 ∧ (base.setSp 14#4).cpu.sp ≠ 15#4 := by decide

/-- Empty, and one above empty. -/
theorem witness_PopReadsThenDecrements : base.cpu.sp = 0#4 ∧ (base.setSp 1#4).cpu.sp ≠ 0#4 := by decide

/-- The whole capacity from empty. -/
theorem witness_PushedWordsPopInReverse : base.cpu.sp.toNat + (List.replicate 15 (0x202#16 : Word)).length ≤ 15 := by decide

/-- Empty; a popped address equal to MEM_LEN; the last address inside. -/
theorem witness_RetPopsIntoPc :
    let out := (base.setSp 1#4).setStackEntry 1#4 0x1000#16
    let inside := (base.setSp 15#4).setStackEntry 15#4 0x0FFF#16
    base.cpu.sp = 0#4 ∧ (out.cpu.sp ≠ 0#4 ∧ out.params.memLen ≤ (out.stackEntry out.cpu.sp).toNat) ∧
    inside.cpu.sp ≠ 0#4 ∧ (inside.stackEntry inside.cpu.sp).toNat < inside.params.memLen := by decide

/-- MEM_LEN and MEM_LEN - 1. -/
theorem witness_JpLoadsPc :
    (withMemLen 2048 base).params.memLen ≤ (0x800#12 : Imm12).toNat ∧
    (0x7FF#12 : Imm12).toNat < (withMemLen 2048 base).params.memLen := by decide

theorem witness_CallPushesAndJumps :
    (base.setSp 15#4).cpu.sp = 15#4 ∧
    ((withMemLen 2048 (base.setSp 14#4)).cpu.sp ≠ 15#4 ∧
      (withMemLen 2048 base).params.memLen ≤ (0x800#12 : Imm12).toNat) ∧
    base.cpu.sp ≠ 15#4 ∧ (0xFFF#12 : Imm12).toNat < base.params.memLen := by decide

theorem witness_JpV0AddsOffset :
    base.params.memLen ≤ (0xFFF#12 : Imm12).toNat + ((base.setV 0#4 1#8).getV 0#4).toNat ∧
    (0xFFF#12 : Imm12).toNat + (base.getV 0#4).toNat < base.params.memLen := by decide

/-- The clauses for a destination other than `VF` (for `AddSetsCarry`, `SubSetsNoBorrow`, `SubnSetsNoBorrow`,
`ShiftsSetBitShiftedOut`); the other destination. -/
theorem witness_destination_not_vf : (0xE#4 : Nibble) ≠ 0xF#4 ∧ ¬ (0xF#4 : Nibble) ≠ 0xF#4 := by decide

theorem witness_GlyphAddressOrUnsupported :
    base.params.Wf ∧ 15 < ((base.setV 10#4 16#8).getV 10#4).toNat ∧ ((base.setV 10#4 15#8).getV 10#4).toNat ≤ 15 := by
  decide

theorem witness_DecimalDigitsStored :
    base.params.memLen ≤ (base.setI 0xFFE#16).cpu.i.toNat + 2 ∧ (base.setI 0xFFD#16).cpu.i.toNat + 2 < base.params.memLen := by
  decide

/-- All sixteen registers, one address too far and just fitting (for `RegistersStoredFromI` and `RegistersLoadedFromI`); the
last register and a register above `V[0]`. -/
theorem witness_registers_and_memory :
    base.params.memLen ≤ (base.setI 0xFF1#16).cpu.i.toNat + (15#4 : Nibble).toNat ∧
    (base.setI 0xFF0#16).cpu.i.toNat + (15#4 : Nibble).toNat < base.params.memLen ∧
    (15#4 : Nibble).toNat ≤ (15#4 : Nibble).toNat ∧ (0#4 : Nibble).toNat < (1#4 : Nibble).toNat := by decide

/-- `V0 = 1, V1 = 2`, `I = 0x300`. -/
def twoRegs : State := ((base.setV 0#4 1#8).setV 1#4 2#8).setI 0x300#16

/-- A store, registers overwritten, a load. -/
theorem witness_StoreThenLoadGivesRegistersBack :
    ∃ t v, twoRegs.cpu.i.toNat + (1#4 : Nibble).toNat < twoRegs.params.memLen ∧
      exec (.ldMemVx 1#4) twoRegs = .next t ∧ ((t.setV 0#4 9#8).setV 1#4 9#8).mem = t.mem ∧
      ((t.setV 0#4 9#8).setV 1#4 9#8).cpu.i = twoRegs.cpu.i ∧
      ((t.setV 0#4 9#8).setV 1#4 9#8).params = twoRegs.params ∧
      exec (.ldVxMem 1#4) ((t.setV 0#4 9#8).setV 1#4 9#8) = .next v :=
  ⟨_, _, by decide, rfl, rfl, rfl, rfl, rfl⟩

/-- A word stored where `pc` points. -/
theorem witness_StoredWordIsFetched :
    ∃ t, 1 ≤ (1#4 : Nibble).toNat ∧
      (twoRegs.setPc 0x300#16).cpu.i.toNat + (1#4 : Nibble).toNat < (twoRegs.setPc 0x300#16).params.memLen ∧
      exec (.ldMemVx 1#4) (twoRegs.setPc 0x300#16) = .next t ∧ t.cpu.pc = (twoRegs.setPc 0x300#16).cpu.i :=
  ⟨_, by decide, by decide, rfl, rfl⟩

theorem witness_ClsClearsScreen :
    drawn.screen = .reference (togglePixel pixelsOff 0 0) ∧ (drawn.setScreen (.external 0)).screen = .external 0 := ⟨rfl, rfl⟩

/-- A sprite one byte too long, one that just fits, one of no row anywhere; a screen that is not the reference one. -/
theorem witness_DrwChecksThenAsksScreen :
    ((15#4 : Nibble) ≠ 0#4 ∧
      base.params.memLen ≤ (base.setI 0xFF2#16).cpu.i.toNat + (15#4 : Nibble).toNat - 1) ∧
    (base.setI 0xFF1#16).cpu.i.toNat + (15#4 : Nibble).toNat - 1 < base.params.memLen ∧
    ((0#4 : Nibble) = 0#4 ∧ (base.setI 0xFFFF#16).cpu.i = 0xFFFF#16) ∧
    (base.setScreen (.external 7)).screen = .external 7 := by decide

theorem witness_DrwXorsSpriteOnReferenceScreen :
    drawn.screen = .reference (togglePixel pixelsOff 0 0) ∧ drawn.cpu.i.toNat + (15#4 : Nibble).toNat - 1 < drawn.params.memLen :=
  ⟨rfl, by decide⟩

/-- Two draws of one sprite row at (0, 0). -/
theorem witness_DrawingTwiceRestoresScreen :
    ∃ t u, drawn.screen = .reference (togglePixel pixelsOff 0 0) ∧ (0#4 : Nibble) ≠ 0xF#4 ∧ (1#4 : Nibble) ≠ 0xF#4 ∧
      ((1#4 : Nibble) = 0#4 ∨ drawn.cpu.i.toNat + (1#4 : Nibble).toNat - 1 < drawn.params.memLen) ∧
      exec (.drw 0#4 1#4 1#4) drawn = .next t ∧ exec (.drw 0#4 1#4 1#4) t = .next u :=
  ⟨_, _, rfl, by decide, by decide, by decide, rfl, rfl⟩

/-- The least number that names no key, the greatest that does. -/
theorem witness_KeySkipsTestOneKey :
    15 < ((base.setV 10#4 16#8).getV 10#4).toNat ∧ ((base.setV 10#4 15#8).getV 10#4).toNat = (15#4 : Nibble).toNat := by decide

/-- Key 15 alone; key 0; none. -/
theorem witness_WaitForKeyTakesLeastKey :
    ((base.setKey 15#4 true).key 15#4 = true ∧
      ∀ j : Nibble, j.toNat < (15#4 : Nibble).toNat → (base.setKey 15#4 true).key j = false) ∧
    ((base.setKey 0#4 true).key 0#4 = true ∧
      ∀ j : Nibble, j.toNat < (0#4 : Nibble).toNat → (base.setKey 0#4 true).key j = false) ∧
    ∀ k : Nibble, base.key k = false := by decide

theorem witness_WaitingStepChangesNothing :
    let s := base.withFetchWord 16 0xF30A
    StepsOnly s ∧ s.cpu.pc.toNat + 1 < s.params.memLen ∧
    decode (s.readBytes s.cpu.pc.toNat 2) = .ok (.ldVxK 3#4, []) ∧ ∀ k : Nibble, s.key k = false := by decide

/-- The last byte of memory, and the first address after it. -/
theorem witness_HostWritesOnePlace : 4095 < base.params.memLen ∧ base.params.memLen ≤ 4096 := by decide

/-- A state after power-on that meets the invariant and whose step answers a next state. -/
theorem witness_StepKeepsInvariant : Inv stepping ∧ ∃ t, step stepping = .next t :=
  ⟨⟨by decide, by decide, by decide, by decide⟩, _, rfl⟩

/-- `JP` is neither `CALL` nor `RET`; `RET` is not `CALL`. -/
theorem witness_OnlyCallAndRetMoveStack :
    (∃ t, exec (.jp 0xFFF#12) base = .next t) ∧ (∀ nnn, Instr.jp 0xFFF#12 ≠ .call nnn) ∧ Instr.jp 0xFFF#12 ≠ .ret ∧
    ∀ nnn, Instr.ret ≠ .call nnn := by
  refine ⟨⟨_, rfl⟩, ?_, ?_, ?_⟩ <;> simp

/-- An instruction that is none of the named writers. -/
theorem witness_EachPieceHasItsWriters :
    (∃ t, exec .ret base = .next t) ∧ (∀ x, Instr.ret ≠ .ldDtVx x) ∧ (∀ x, Instr.ret ≠ .ldStVx x) ∧
    (∀ nnn, Instr.ret ≠ .ldI nnn) ∧ (∀ x, Instr.ret ≠ .addI x) ∧ (∀ x, Instr.ret ≠ .ldF x) ∧ (∀ x, Instr.ret ≠ .ldB x) ∧
    (∀ x, Instr.ret ≠ .ldMemVx x) ∧ Instr.ret ≠ .cls ∧ (∀ x y n, Instr.ret ≠ .drw x y n) ∧
    ∀ x kk, Instr.ret ≠ .rnd x kk := by
  refine ⟨⟨_, rfl⟩, ?_, ?_, ?_, ?_, ?_, ?_, ?_, ?_, ?_, ?_⟩ <;> simp

/-- The register just above those that `LD V2, [I]` loads, and one beside `VF`. -/
theorem witness_OnlyDestinationRegistersChange :
    (∃ t, exec (.ldVxMem 2#4) base = .next t) ∧ (3#4 : Nibble) ∉ destRegs (.ldVxMem 2#4) ∧
    (14#4 : Nibble) ∉ destRegs (.addReg 0#4 14#4) := ⟨⟨_, rfl⟩, by decide, by decide⟩

/-- The last word of memory holds a skip. -/
theorem witness_PcStaysWithinTwoOfMemory :
    let s := (base.setPc 0xFFE#16).withFetchWord 16 0x3100
    s.params.memLen < 65534 ∧ StepsOnly s ∧ s.cpu.pc.toNat + 1 < s.params.memLen ∧
    okWith (step s) (fun t => t.cpu.pc.toNat = s.params.memLen + 2) = true := by decide

/-- `JP 0x200` at 0x200. -/
theorem witness_ParkedStateStays :
    Parked (base.withFetchWord 16 0x1200) ∧ StepsOnly (base.withFetchWord 16 0x1200) :=
  ⟨⟨by decide, by decide, by decide⟩, by decide⟩

end Sys2Proof.Tests
end

section
/-! What an instruction, an event and a step can do to the state, said once: `exec_edits` lists the primitive writes of every
instruction, and frames (`exec_sameBut`) and the invariant (`exec_inv`) follow by induction on those writes. -/

namespace Sys2Proof.Machine

open Sys2Proof.Safety

variable {m : MayChange} {i : Instr} {s t : State}

/-! ## The primitive writes of an instruction -/

/-- The parts of the state an instruction run in `s` may write, whether or not it raises an error (10_state.md R10 to R17;
the memory instructions, 43_index_memory.md R80 and R81, write the bytes from `I` upward). -/
def mayWrite (i : Instr) (s : State) : MayChange :=
  match i with
  | .cls => { screen := true }
  | .ret => { pc := true, sp := true, answer := true }
  | .sys _ | .unsupported _ => { answer := true }
  | .jp _ | .jpV0 _ | .skp _ | .sknp _ => { pc := true, answer := true }
  | .call _ => { pc := true, sp := true, entry := some (s.cpu.sp + 1), answer := true }
  | .seImm _ _ | .sneImm _ _ | .seReg _ _ | .sneReg _ _ => { pc := true }
  | .ldImm _ _ | .addImm _ _ | .ldReg _ _ | .orReg _ _ | .andReg _ _ | .xorReg _ _ | .addReg _ _ | .subReg _ _
  | .shr _ _ | .subn _ _ | .shl _ _ | .ldVxDt _ => { regs := destRegs i }
  | .ldVxK _ => { regs := destRegs i, pc := true }
  | .ldVxMem _ => { regs := destRegs i, answer := true }
  | .rnd _ _ => { regs := destRegs i, rndReads := true }
  | .drw _ _ _ => { regs := destRegs i, screen := true, answer := true }
  | .ldDtVx _ => { dt := true }
  | .ldStVx _ => { st := true }
  | .ldI _ | .addI _ => { i := true }
  | .ldF _ => { i := true, answer := true }
  | .ldB _ => { memAt := effAddr s 0, memCount := 3, answer := true }
  | .ldMemVx x => { memAt := effAddr s 0, memCount := x.toNat + 1, answer := true }

/-- `Edits m s t`: primitive writes, each to a part that `m` names, lead from `s` to `t`. Entry 0 of the call stack is never
written (10_state.md R15), and bytes are stored inside memory only (20_memory.md R25). -/
inductive Edits (m : MayChange) (s : State) : State → Prop where
  | refl : Edits m s s
  | setV {t : State} (h : Edits m s t) (x : Nibble) (b : Byte) (hx : x ∈ m.regs) : Edits m s (t.setV x b)
  | setI {t : State} (h : Edits m s t) (w : Word) (hi : m.i = true) : Edits m s (t.setI w)
  | setPc {t : State} (h : Edits m s t) (w : Word) (hpc : m.pc = true) : Edits m s (t.setPc w)
  | setSp {t : State} (h : Edits m s t) (n : Nibble) (hsp : m.sp = true) : Edits m s (t.setSp n)
  | setStackEntry {t : State} (h : Edits m s t) (j : Nibble) (w : Word) (hj : m.entry = some j) (h0 : j ≠ 0x0#4) :
      Edits m s (t.setStackEntry j w)
  | setDt {t : State} (h : Edits m s t) (b : Byte) (hdt : m.dt = true) : Edits m s (t.setDt b)
  | setSt {t : State} (h : Edits m s t) (b : Byte) (hst : m.st = true) : Edits m s (t.setSt b)
  | writeBytes {t : State} (h : Edits m s t) (bs : List Byte) (hlen : bs.length = m.memCount)
      (hin : m.memAt + bs.length ≤ t.params.memLen) : Edits m s (t.writeBytes m.memAt bs)
  | setScreen {t : State} (h : Edits m s t) (sc : Screen) (hsc : m.screen = true) : Edits m s (t.setScreen sc)
  | countRnd {t : State} (h : Edits m s t) (hr : m.rndReads = true) : Edits m s t.countRnd
  | setAnswer {t : State} (h : Edits m s t) (a : Answer) (ha : m.answer = true) : Edits m s (t.setAnswer a)

theorem Edits.setResultFlag (h : Edits m s t) (x : Nibble) (r : Byte) (c : Bool) (hx : m.regs = [x, 0xF#4]) :
    Edits m s (t.setResultFlag x r c) :=
  (h.setV x r (by simp [hx])).setV 0xF#4 (flagByte c) (by simp [hx])

theorem Edits.skipIf (h : Edits m s t) (c : Bool) (hpc : m.pc = true) : Edits m s (skipIf c t) := by
  cases c
  · exact h
  · exact h.setPc _ hpc

theorem Edits.setRegsFrom (h : Edits m s t) (j : Nat) (bs : List Byte)
    (hr : ∀ k, j ≤ k → k < j + bs.length → BitVec.ofNat 4 k ∈ m.regs) : Edits m s (t.setRegsFrom j bs) := by
  induction bs generalizing t j with
  | nil => exact h
  | cons b rest ih =>
    rw [List.length_cons] at hr
    exact ih (h.setV _ b (hr j (by omega) (by omega))) (j + 1) fun k hk hk' => hr k (by omega) (by omega)

/-- `CALL` writes the entry above `sp`, never entry 0: it does not push when `sp` is 15 (40_cycle.md R49). -/
theorem add_one_ne_zero_of_not_full {n : Nibble} (h : n ≠ 0xF#4) : n + 1 ≠ 0x0#4 := by bv_omega

/-- Every instruction's effect is made of primitive writes to the parts `mayWrite` names. -/
theorem exec_edits (h : exec i s = .next t) : Edits (mayWrite i s) s t := by
  cases i
  case cls => cases h; exact Edits.refl.setScreen _ rfl
  case sys | unsupported => cases h; exact Edits.refl.setAnswer _ rfl
  case ldI | addI => cases h; exact Edits.refl.setI _ rfl
  case ldDtVx => cases h; exact Edits.refl.setDt _ rfl
  case ldStVx => cases h; exact Edits.refl.setSt _ rfl
  case seImm | sneImm | seReg | sneReg => cases h; exact Edits.refl.skipIf _ rfl
  case ldImm | addImm | ldReg | orReg | andReg | xorReg | ldVxDt =>
    cases h; exact Edits.refl.setV _ _ (List.mem_singleton_self _)
  case addReg | subReg | shr | subn | shl => cases h; exact Edits.refl.setResultFlag _ _ _ rfl
  case rnd => cases h; exact (Edits.refl.setV _ _ (List.mem_singleton_self _)).countRnd rfl
  case jp | jpV0 =>
    obtain ⟨-, rfl⟩ | ⟨-, rfl⟩ := withinMemory_next_cases _ _ _ _ h
    · exact Edits.refl.setPc _ rfl
    · exact Edits.refl.setAnswer _ rfl
  case ret =>
    obtain ⟨-, rfl⟩ | ⟨-, -, rfl⟩ | ⟨-, -, rfl⟩ := execRet_cases _ _ h
    · exact Edits.refl.setAnswer _ rfl
    · exact (Edits.refl.setSp _ rfl).setPc _ rfl
    · exact Edits.refl.setAnswer _ rfl
  case call =>
    obtain ⟨-, rfl⟩ | ⟨hsp, -, rfl⟩ | ⟨-, -, rfl⟩ := execCall_cases _ _ _ h
    · exact Edits.refl.setAnswer _ rfl
    · exact ((Edits.refl.setSp _ rfl).setStackEntry _ _ rfl (add_one_ne_zero_of_not_full hsp)).setPc _ rfl
    · exact Edits.refl.setAnswer _ rfl
  case skp =>
    obtain ⟨c, rfl⟩ | rfl := execSkp_cases _ _ _ h
    · exact Edits.refl.skipIf _ rfl
    · exact Edits.refl.setAnswer _ rfl
  case sknp =>
    obtain ⟨c, rfl⟩ | rfl := execSknp_cases _ _ _ h
    · exact Edits.refl.skipIf _ rfl
    · exact Edits.refl.setAnswer _ rfl
  case ldVxK =>
    obtain ⟨b, rfl⟩ | ⟨-, rfl⟩ := execLdVxK_cases _ _ _ h
    · exact Edits.refl.setV _ _ (List.mem_singleton_self _)
    · exact Edits.refl.setPc _ rfl
  case ldF =>
    obtain ⟨w, rfl⟩ | rfl := execLdF_cases _ _ _ h
    · exact Edits.refl.setI _ rfl
    · exact Edits.refl.setAnswer _ rfl
  case drw =>
    obtain h | ⟨-, -, rfl⟩ := execDrw_cases _ _ _ _ _ h
    · obtain ⟨c, -, rfl⟩ | ⟨-, rfl⟩ := drawRequest_cases _ _ _ _ _ _ h
      · exact (Edits.refl.setScreen _ rfl).setV _ _ (List.mem_singleton_self _)
      · exact (Edits.refl.setScreen _ rfl).setAnswer _ rfl
    · exact Edits.refl.setAnswer _ rfl
  case ldB x =>
    obtain ⟨hin, rfl⟩ | ⟨-, rfl⟩ := withinMemory_next_cases _ _ _ _ h
    · exact Edits.refl.writeBytes (decimalDigits (s.getV x)) rfl hin
    · exact Edits.refl.setAnswer _ rfl
  case ldMemVx x =>
    obtain ⟨hin, rfl⟩ | ⟨-, rfl⟩ := withinMemory_next_cases _ _ _ _ h
    · exact Edits.refl.writeBytes (s.regsUpTo x) (s.length_regsUpTo x) (by rw [State.length_regsUpTo]; exact hin)
    · exact Edits.refl.setAnswer _ rfl
  case ldVxMem x =>
    obtain ⟨-, rfl⟩ | ⟨-, rfl⟩ := withinMemory_next_cases _ _ _ _ h
    · refine Edits.refl.setRegsFrom 0 _ fun k _ hk => List.mem_map_of_mem (List.mem_range.mpr ?_)
      simpa [State.readBytes] using hk
    · exact Edits.refl.setAnswer _ rfl

/-! ## Frames -/

theorem sameBut_refl (m : MayChange) (s : State) : SameBut m s s := by
  constructor <;> intros <;> rfl

/-- Primitive writes to parts that `m` names leave every other part alone. -/
theorem Edits.sameBut (h : Edits m s t) : SameBut m s t := by
  induction h with
  | refl => exact sameBut_refl m s
  | setV _ x b hx ih =>
    exact { ih with regs := fun j hj => (State.getV_setV_other _ x j b fun e => hj (e ▸ hx)).trans (ih.regs j hj) }
  | setI _ w hi ih => exact { ih with i := fun hf => by simp [hi] at hf }
  | setPc _ w hpc ih => exact { ih with pc := fun hf => by simp [hpc] at hf }
  | setSp _ n hsp ih => exact { ih with sp := fun hf => by simp [hsp] at hf }
  | setStackEntry _ j w hj _ ih =>
    refine { ih with callStack := fun k hk => ?_ }
    have hne : k ≠ j := fun e => hk (e ▸ hj.symm)
    rw [State.stackEntry_setStackEntry, if_neg hne, ih.callStack k hk]
  | setDt _ b hdt ih => exact { ih with dt := fun hf => by simp [hdt] at hf }
  | setSt _ b hst ih => exact { ih with st := fun hf => by simp [hst] at hf }
  | writeBytes _ bs hlen _ ih =>
    refine { ih with mem := fun a ha => ?_ }
    rw [State.readByte_writeBytes, dif_neg (by omega), ih.mem a ha]
  | setScreen _ sc hsc ih => exact { ih with screen := fun hf => by simp [hsc] at hf }
  | countRnd _ hr ih => exact { ih with rndReads := fun hf => by simp [hr] at hf }
  | setAnswer _ a ha ih => exact { ih with answer := fun hf => by simp [ha] at hf }

/-- An instruction leaves every part of the state that `mayWrite` does not name as it was. -/
theorem exec_sameBut (h : exec i s = .next t) : SameBut (mayWrite i s) s t := (exec_edits h).sameBut

/-! ## What only the named instructions write -/

theorem mayWrite_key (i : Instr) (s : State) : (mayWrite i s).key = none := by
  cases i <;> rfl

theorem mayWrite_dt (s : State) (h : ∀ x, i ≠ .ldDtVx x) : (mayWrite i s).dt = false := by
  cases i with
  | ldDtVx x => exact absurd rfl (h x)
  | _ => rfl

theorem mayWrite_st (s : State) (h : ∀ x, i ≠ .ldStVx x) : (mayWrite i s).st = false := by
  cases i with
  | ldStVx x => exact absurd rfl (h x)
  | _ => rfl

theorem mayWrite_i (s : State) (hLdI : ∀ nnn, i ≠ .ldI nnn) (hAddI : ∀ x, i ≠ .addI x) (hLdF : ∀ x, i ≠ .ldF x) :
    (mayWrite i s).i = false := by
  cases i with
  | ldI nnn => exact absurd rfl (hLdI nnn)
  | addI x => exact absurd rfl (hAddI x)
  | ldF x => exact absurd rfl (hLdF x)
  | _ => rfl

theorem mayWrite_memCount (s : State) (hLdB : ∀ x, i ≠ .ldB x) (hStore : ∀ x, i ≠ .ldMemVx x) :
    (mayWrite i s).memCount = 0 := by
  cases i with
  | ldB x => exact absurd rfl (hLdB x)
  | ldMemVx x => exact absurd rfl (hStore x)
  | _ => rfl

theorem mayWrite_screen (s : State) (hCls : i ≠ .cls) (hDrw : ∀ x y n, i ≠ .drw x y n) :
    (mayWrite i s).screen = false := by
  cases i with
  | cls => exact absurd rfl hCls
  | drw x y n => exact absurd rfl (hDrw x y n)
  | _ => rfl

theorem mayWrite_rndReads (s : State) (h : ∀ x kk, i ≠ .rnd x kk) : (mayWrite i s).rndReads = false := by
  cases i with
  | rnd x kk => exact absurd rfl (h x kk)
  | _ => rfl

/-! ## The invariant -/

/-- The invariant speaks of the parameters, the memory and entry 0 of the call stack only. -/
theorem inv_of_same (h : Inv s) (hp : t.params = s.params) (hm : t.mem = s.mem) (hb : t.stackEntry 0x0#4 = 0x0000#16) :
    Inv t where
  params := hp ▸ h.params
  memWf := hm ▸ h.memWf
  memInside := by rw [MemInside, hm, hp]; exact h.memInside
  stackBase := hb

/-- Bytes stored inside memory keep the invariant. -/
theorem inv_writeBytes (h : Inv s) (a : Nat) (bs : List Byte) (hin : a + bs.length ≤ s.params.memLen) :
    Inv (s.writeBytes a bs) where
  params := h.params
  memWf := Memory.wf_writeBytes _ _ _ h.memWf
  memInside := Memory.inside_writeBytes _ _ _ _ h.memInside (.inr hin)
  stackBase := h.stackBase

/-- Primitive writes keep the invariant: stores stay inside memory, and entry 0 of the call stack is not written. -/
theorem Edits.inv (h : Edits m s t) (hs : Inv s) : Inv t := by
  induction h with
  | refl => exact hs
  | writeBytes _ bs _ hin ih => exact inv_writeBytes ih _ bs hin
  | setStackEntry _ j w _ h0 ih =>
    exact inv_of_same ih rfl rfl (by rw [State.stackEntry_setStackEntry, if_neg (Ne.symm h0), ih.stackBase])
  | setV _ _ _ _ ih | setI _ _ _ ih | setPc _ _ _ ih | setSp _ _ _ ih | setDt _ _ _ ih | setSt _ _ _ ih
  | setScreen _ _ _ ih | countRnd _ _ ih | setAnswer _ _ _ ih => exact inv_of_same ih rfl rfl ih.stackBase

theorem exec_inv (h : exec i s = .next t) (hs : Inv s) : Inv t := (exec_edits h).inv hs

/-! ## The cycle, the events and the step -/

/-- A cycle could not fetch and answered the error, or it executed an instruction. -/
theorem cycle_cases (h : cycle s = .next t) :
    (∃ e, t = s.setAnswer (.error e)) ∨ ∃ i, exec i (s.advancePc.setAnswer .ok) = .next t := by
  by_cases hpc : s.cpu.pc.toNat + 1 < s.params.memLen
  · exact .inr ⟨_, cycle_of_lt s hpc ▸ h⟩
  · rw [cycle_of_le s (Nat.not_lt.mp hpc)] at h
    cases h
    exact .inl ⟨_, rfl⟩

theorem cycle_policy (h : cycle s = .next t) : t.driver.policy = s.driver.policy := by
  obtain ⟨e, rfl⟩ | ⟨i, hi⟩ := cycle_cases h
  · rfl
  · exact (exec_sameBut hi).policy

theorem cycle_inv (h : cycle s = .next t) (hs : Inv s) : Inv t := by
  obtain ⟨e, rfl⟩ | ⟨i, hi⟩ := cycle_cases h
  · exact inv_of_same hs rfl rfl hs.stackBase
  · exact exec_inv hi (inv_of_same hs rfl rfl hs.stackBase)

/-- The event `Step` is a cycle, after which the driving loop changes its own schedule at most. -/
theorem runEvent_step_cases (h : runEvent .step s = .next t) : ∃ u es, cycle s = .next u ∧ t = u.setSchedule es := by
  rw [runEvent] at h
  cases hc : cycle s with
  | next u =>
    rw [hc] at h
    obtain ⟨es, rfl⟩ := driverReacts_cases u t h
    exact ⟨u, es, rfl, rfl⟩
  | fault r => rw [hc] at h; cases h
  | refused r => rw [hc] at h; cases h

theorem hostMemWrite_cases {a : Nat} {b : Byte} (h : hostMemWrite a b s = .next t) :
    a < s.params.memLen ∧ t = s.writeByte a b := by
  unfold hostMemWrite at h
  split at h
  · cases h; exact ⟨‹_›, rfl⟩
  · cases h

theorem runEvent_inv (e : Event) (h : runEvent e s = .next t) (hs : Inv s) : Inv t := by
  cases e with
  | step =>
    obtain ⟨u, es, hu, rfl⟩ := runEvent_step_cases h
    have hi := cycle_inv hu hs
    exact inv_of_same hi rfl rfl hi.stackBase
  | hostMemWrite a b =>
    obtain ⟨ha, rfl⟩ := hostMemWrite_cases h
    exact inv_writeBytes hs a [b] ha
  | reset => cases h; exact inv_of_same hs rfl rfl rfl
  | tick | keyWrite | hostLoadPC => cases h; exact inv_of_same hs rfl rfl hs.stackBase

theorem runEvent_policy (e : Event) (h : runEvent e s = .next t) : t.driver.policy = s.driver.policy := by
  cases e with
  | step =>
    obtain ⟨u, es, hu, rfl⟩ := runEvent_step_cases h
    exact (State.setSchedule_driver_policy u es).trans (cycle_policy hu)
  | hostMemWrite a b => obtain ⟨-, rfl⟩ := hostMemWrite_cases h; rfl
  | tick | reset | keyWrite | hostLoadPC => cases h; rfl

/-- Taking the next event off changes the driving loop only. -/
theorem issueEvent_cases (s : State) :
    (∃ es, issueEvent s = s.setSchedule es) ∨ ∃ c, issueEvent s = s.setAfterwards c := by
  unfold issueEvent
  split
  · exact .inl ⟨_, rfl⟩
  · split
    · exact .inl ⟨_, rfl⟩
    · exact .inr ⟨_, rfl⟩

theorem issueEvent_inv (hs : Inv s) : Inv (issueEvent s) := by
  obtain ⟨es, e⟩ | ⟨c, e⟩ := issueEvent_cases s <;> rw [e] <;> exact inv_of_same hs rfl rfl hs.stackBase

/-! ## Events under another schedule -/

theorem cycle_setSchedule (s : State) (es : List Event) : cycle (s.setSchedule es) = keepSchedule es (cycle s) := by
  by_cases h : s.cpu.pc.toNat + 1 < s.params.memLen
  · rw [cycle_of_lt s h, cycle_of_lt (s.setSchedule es) h]
    exact exec_setSchedule (s.advancePc.setAnswer .ok) es _
  · rw [cycle_of_le s (Nat.not_lt.mp h), cycle_of_le (s.setSchedule es) (Nat.not_lt.mp h)]
    rfl

/-- No event reads the schedule, and but for the policy `reset` none writes it. -/
theorem runEvent_setSchedule (e : Event) (es : List Event) (h : s.driver.policy ≠ .reset) :
    runEvent e (s.setSchedule es) = keepSchedule es (runEvent e s) := by
  cases e with
  | step =>
    rw [runEvent, runEvent, cycle_setSchedule]
    cases hc : cycle s with
    | next u => exact driverReacts_setSchedule u es (cycle_policy hc ▸ h)
    | fault | refused => rfl
  | hostMemWrite a b =>
    rw [runEvent, runEvent, hostMemWrite, hostMemWrite, State.setSchedule_params]
    split <;> rfl
  | tick | reset | keyWrite | hostLoadPC => rfl

end Sys2Proof.Machine

/-! ## The statements of 00_scope.md settled -/

namespace Sys2Proof.Proofs

open Sys2Proof.Machine Sys2Proof.Safety

/-- Settles O53: taking an event off keeps the invariant, and so does every event. -/
theorem stepKeepsInvariant : Obligations.StepKeepsInvariant :=
  fun _ _ hs h => runEvent_inv _ h (issueEvent_inv hs)

/-- Settles O56, from the frame of every instruction. -/
theorem eachPieceHasItsWriters : Obligations.EachPieceHasItsWriters := by
  intro i s t h
  have frame := exec_sameBut h
  refine ⟨fun k => frame.keypad k (by simp [mayWrite_key]), frame.params, frame.schedule, frame.policy, frame.afterwards,
    fun hDt => frame.dt (mayWrite_dt s hDt), fun hSt => frame.st (mayWrite_st s hSt),
    fun hLdI hAddI hLdF => frame.i (mayWrite_i s hLdI hAddI hLdF), fun hLdB hStore a => frame.mem a ?_,
    fun hCls hDrw => frame.screen (mayWrite_screen s hCls hDrw), fun hRnd => frame.rndReads (mayWrite_rndReads s hRnd)⟩
  rw [mayWrite_memCount s hLdB hStore]
  omega

/-- Settles O60, by induction on the list of events: each event is the same whatever is still to be issued. -/
theorem everyInterleavingIsARun : Obligations.EveryInterleavingIsARun := by
  intro es
  induction es with
  | nil => intro s _; rfl
  | cons e es ih =>
    intro s hp
    have hstep : step (s.setSchedule (e :: es)) = keepSchedule es (runEvent e s) :=
      (step_of_scheduled _ e es rfl).trans (runEvent_setSchedule e es hp)
    rw [List.length_cons, runFor, hstep, runEvents, runEvent_setSchedule e [] hp]
    cases hr : runEvent e s with
    | next t => exact ih t (runEvent_policy e hr ▸ hp)
    | fault | refused => rfl

/-- Settles O8: the head of the schedule, or what the continuation gives, is the event of the step. -/
theorem scheduledEventsRunWhole : Obligations.ScheduledEventsRunWhole := fun s es =>
  ⟨step_of_scheduled s _ es, step_of_scheduled s _ es, fun _ _ => step_of_scheduled s _ es,
    fun _ => step_of_scheduled s _ es, fun _ _ => step_of_scheduled s _ es,
    fun e => step_of_again s e es, fun n => step_of_free s n⟩

/-- Settles O54: nothing is listed, the parameters are R3's defaults, and the call stack is all zero. -/
theorem resetMeetsInvariant : Obligations.ResetMeetsInvariant where
  params := by decide
  memWf := ⟨List.Pairwise.nil, List.forall_mem_nil _⟩
  memInside := List.forall_mem_nil _
  stackBase := rfl

end Sys2Proof.Proofs
end

section
/-! The registers, the call stack and `pc` of 10_state.md: which of them an instruction may write, where it can leave `pc`, and
that a `Step` does not see the last answer. -/

namespace Sys2Proof.Machine

open Sys2Proof.Safety

variable {i : Instr} {s t : State}

/-! ## What only the named instructions write: registers and stack -/

theorem mayWrite_regs (i : Instr) (s : State) : (mayWrite i s).regs = destRegs i := by
  cases i <;> rfl

theorem mayWrite_entry (s : State) (hCall : ∀ nnn, i ≠ .call nnn) : (mayWrite i s).entry = none := by
  cases i with
  | call nnn => exact absurd rfl (hCall nnn)
  | _ => rfl

theorem mayWrite_sp (s : State) (hCall : ∀ nnn, i ≠ .call nnn) (hRet : i ≠ .ret) : (mayWrite i s).sp = false := by
  cases i with
  | call nnn => exact absurd rfl (hCall nnn)
  | ret => exact absurd rfl hRet
  | _ => rfl

/-! ## Where an instruction leaves `pc` -/

theorem skipIf_pc (c : Bool) (s : State) :
    (skipIf c s).cpu.pc = s.cpu.pc ∨ (skipIf c s).cpu.pc = s.cpu.pc + 2 := by
  cases c
  · exact .inl rfl
  · exact .inr rfl

theorem toNat_zext16 (nnn : Imm12) : (zext16 nnn).toNat = nnn.toNat := BitVec.toNat_setWidth_of_le (by decide)

/-- An instruction leaves `pc`, skips, steps back onto itself (`LD Vx, K`), or jumps to an address inside memory
(10_state.md R13, 41_control_flow.md R52). -/
theorem exec_pc_cases (h : exec i s = .next t) :
    (t.cpu.pc = s.cpu.pc ∨ t.cpu.pc = s.cpu.pc + 2) ∨ t.cpu.pc = s.cpu.pc - 2 ∨ t.cpu.pc.toNat < s.params.memLen := by
  cases i
  case seImm | sneImm | seReg | sneReg => cases h; exact .inl (skipIf_pc _ s)
  case skp =>
    obtain ⟨c, rfl⟩ | rfl := execSkp_cases _ _ _ h
    · exact .inl (skipIf_pc c s)
    · exact .inl (.inl rfl)
  case sknp =>
    obtain ⟨c, rfl⟩ | rfl := execSknp_cases _ _ _ h
    · exact .inl (skipIf_pc c s)
    · exact .inl (.inl rfl)
  case ldVxK =>
    obtain ⟨b, rfl⟩ | ⟨-, rfl⟩ := execLdVxK_cases _ _ _ h
    · exact .inl (.inl rfl)
    · exact .inr (.inl rfl)
  case jp nnn =>
    obtain ⟨hin, rfl⟩ | ⟨-, rfl⟩ := withinMemory_next_cases _ _ _ _ h
    · exact .inr (.inr ((toNat_zext16 nnn).trans_lt hin))
    · exact .inl (.inl rfl)
  case jpV0 nnn =>
    obtain ⟨hin, rfl⟩ | ⟨-, rfl⟩ := withinMemory_next_cases _ _ _ _ h
    · exact .inr (.inr (by simpa using (Nat.mod_le _ _).trans_lt hin))
    · exact .inl (.inl rfl)
  case call nnn =>
    obtain ⟨-, rfl⟩ | ⟨-, hin, rfl⟩ | ⟨-, -, rfl⟩ := execCall_cases _ _ _ h
    · exact .inl (.inl rfl)
    · exact .inr (.inr ((toNat_zext16 nnn).trans_lt hin))
    · exact .inl (.inl rfl)
  case ret =>
    obtain ⟨-, rfl⟩ | ⟨-, hin, rfl⟩ | ⟨-, -, rfl⟩ := execRet_cases _ _ h
    · exact .inl (.inl rfl)
    · exact .inr (.inr hin)
    · exact .inl (.inl rfl)
  all_goals exact .inl (.inl ((exec_sameBut h).pc rfl))

/-- A cycle that fetched, with a MEM_LEN that leaves no wrap reachable, leaves `pc` at most 2 past the end of memory (R13). -/
theorem cycle_pc_le (hlen : s.params.memLen < 65534) (hpc : s.cpu.pc.toNat + 1 < s.params.memLen)
    (h : cycle s = .next t) : t.cpu.pc.toNat ≤ s.params.memLen + 2 := by
  rw [cycle_of_lt s hpc] at h
  have hcases := exec_pc_cases h
  simp only [State.setAnswer_cpu_pc, State.advancePc_cpu_pc, State.setAnswer_params, State.advancePc_params] at hcases
  obtain (e | e) | e | e := hcases
  · rw [e]; bv_omega
  · rw [e]; bv_omega
  · rw [e, BitVec.add_sub_cancel]; omega
  · omega

/-! ## A step that fetches -/

theorem decode_readBytes_two (s : State) (a : Nat) : decode (s.readBytes a 2) = .ok (decodeWord (s.wordAt a), []) := rfl

/-- With only `Step` issued, the step executes the instruction that stands at `pc`. -/
theorem step_of_decode (hs : StepsOnly s) (hpc : s.cpu.pc.toNat + 1 < s.params.memLen)
    (hdec : decode (s.readBytes s.cpu.pc.toNat 2) = .ok (i, [])) :
    step s = afterCycle (exec i (s.advancePc.setAnswer .ok)) := by
  rw [decode_readBytes_two] at hdec
  cases hdec
  rw [step_of_stepsOnly s hs, cycle_of_lt s hpc]

/-- After `Ok` the driving loop changes nothing (60_exceptions.md R102). -/
theorem driverReacts_of_ok (h : t.driver.answer = .ok) : driverReacts t = .next t := by
  simp [driverReacts, h]

theorem exec_ldVxK_of_no_key (x : Nibble) (h : ∀ k : Nibble, s.key k = false) :
    exec (.ldVxK x) s = .next (s.setPc (s.cpu.pc - 2)) := by
  simp [exec, execLdVxK, (leastPressed_eq_none s).mpr h]

/-- Stepping back undoes the fetch's advance (45_keypad_timers.md R89). -/
theorem setPc_sub_two_of_fetched (s : State) (a : Answer) :
    (s.advancePc.setAnswer a).setPc ((s.advancePc.setAnswer a).cpu.pc - 2) = s.setAnswer a := by
  simp [State.advancePc, State.setPc, State.setAnswer]

/-! ## The last answer is not read -/

theorem issueEvent_setAnswer (s : State) (a : Answer) : issueEvent (s.setAnswer a) = (issueEvent s).setAnswer a := by
  unfold issueEvent
  rw [State.setAnswer_driver_schedule, State.setAnswer_driver_afterwards]
  split
  · rfl
  · split <;> rfl

/-- A cycle records an answer of its own, whether or not it could fetch. -/
theorem cycle_setAnswer (s : State) (a : Answer) : cycle (s.setAnswer a) = cycle s := by
  by_cases h : s.cpu.pc.toNat + 1 < s.params.memLen
  · rw [cycle_of_lt s h, cycle_of_lt (s.setAnswer a) h]; rfl
  · rw [cycle_of_le s (Nat.not_lt.mp h), cycle_of_le (s.setAnswer a) (Nat.not_lt.mp h)]; rfl

end Sys2Proof.Machine

/-! ## The statements of 10_state.md settled -/

namespace Sys2Proof.Proofs

open Sys2Proof.Machine Sys2Proof.Safety

/-- Settles O15: the cycle is the same, and taking the event off does not touch the answer. -/
theorem lastAnswerIsNeverRead : Obligations.LastAnswerIsNeverRead := by
  intro s a h
  have h' : nextEvent (s.setAnswer a) = .step := h
  rw [step_of_nextEvent _ _ h', step_of_nextEvent _ _ h, issueEvent_setAnswer, runEvent, runEvent, cycle_setAnswer]

/-- Settles O45: `LD Vx, K` sets `pc` back by the 2 that the fetch added. -/
theorem waitingStepChangesNothing : Obligations.WaitingStepChangesNothing := by
  intro x s hs hpc hdec hkeys
  have hwait := exec_ldVxK_of_no_key (s := s.advancePc.setAnswer .ok) x hkeys
  rw [step_of_decode hs hpc hdec, hwait, setPc_sub_two_of_fetched]
  exact driverReacts_of_ok (State.setAnswer_driver_answer s .ok)

/-- Settles O55, from the frame of every instruction. -/
theorem onlyCallAndRetMoveStack : Obligations.OnlyCallAndRetMoveStack := fun _ s _ h hCall =>
  ⟨fun j => (exec_sameBut h).callStack j (by simp [mayWrite_entry s hCall]),
    fun hRet => (exec_sameBut h).sp (mayWrite_sp s hCall hRet)⟩

/-- Settles O57, from the frame of every instruction. -/
theorem onlyDestinationRegistersChange : Obligations.OnlyDestinationRegistersChange := fun i s _ h j hj =>
  (exec_sameBut h).regs j (by rwa [mayWrite_regs])

/-- Settles O58: the driving loop does not touch `pc` after the cycle. -/
theorem pcStaysWithinTwoOfMemory : Obligations.PcStaysWithinTwoOfMemory := by
  intro s t hlen hs hpc h
  rw [step_of_nextEvent s _ (nextEvent_of_stepsOnly s hs), issueEvent_of_stepsOnly s hs] at h
  obtain ⟨u, es, hu, rfl⟩ := runEvent_step_cases h
  rw [State.setSchedule_cpu_pc]
  exact cycle_pc_le hlen hpc hu

/-- Settles O52: Reset puts the whole CpuState to zero, the value it has at power-on (R20, R111). -/
theorem resetEqualsPowerOn : Obligations.ResetEqualsPowerOn :=
  ⟨fun _ => rfl,
    fun j => ⟨Vector.getElem_replicate j.isLt, Vector.getElem_replicate j.isLt, Vector.getElem_replicate j.isLt⟩,
    rfl, rfl, rfl, rfl, rfl⟩

end Sys2Proof.Proofs
end

section
/-! The bytes of 20_memory.md: the decoder on the two bytes of an instruction (R26), a store seen by the next fetch (R33), and
the host's writes (R31). -/

namespace Sys2Proof

variable {w : Word}

/-! ## The branch of the decoder an op field selects (30_encoding.md R40) -/

theorem decodeWord_of_op_zero (h : opField w = 0x0#4) : decodeWord w = decodeGroup0 w := by
  simp [decodeWord, h]

theorem decodeWord_of_op_five (h : opField w = 0x5#4) :
    decodeWord w = if nField w = 0x0#4 then .seReg (xField w) (yField w) else .unsupported w := by
  simp [decodeWord, h]

theorem decodeWord_of_op_eight (h : opField w = 0x8#4) : decodeWord w = decodeGroup8 w := by
  simp [decodeWord, h]

theorem decodeWord_of_op_nine (h : opField w = 0x9#4) :
    decodeWord w = if nField w = 0x0#4 then .sneReg (xField w) (yField w) else .unsupported w := by
  simp [decodeWord, h]

theorem decodeWord_of_op_E (h : opField w = 0xE#4) : decodeWord w = decodeGroupE w := by
  simp [decodeWord, h]

theorem decodeWord_of_op_F (h : opField w = 0xF#4) : decodeWord w = decodeGroupF w := by
  simp [decodeWord, h]

/-! ## Reserved words (30_encoding.md R41) -/

/-- R41's table in the fields of R36, one disjunct per row. -/
theorem reservedWord_iff : reservedWord w = true ↔
    (opField w = 0x5#4 ∧ nField w ≠ 0x0#4) ∨
    (opField w = 0x8#4 ∧ nField w ∈ [0x8#4, 0x9#4, 0xA#4, 0xB#4, 0xC#4, 0xD#4, 0xF#4]) ∨
    (opField w = 0x9#4 ∧ nField w ≠ 0x0#4) ∨
    (opField w = 0xE#4 ∧ kkField w ∉ [0x9E#8, 0xA1#8]) ∨
    (opField w = 0xF#4 ∧
      kkField w ∉ [0x07#8, 0x0A#8, 0x15#8, 0x18#8, 0x1E#8, 0x29#8, 0x33#8, 0x55#8, 0x65#8]) := by
  simp [reservedWord, opField, nField, kkField, or_assoc]

/-- No other instruction of its op field has the `n` or `kk` of a reserved word. -/
theorem decodeWord_of_reservedWord (h : reservedWord w = true) : decodeWord w = .unsupported w := by
  obtain ⟨hop, hn⟩ | ⟨hop, hn⟩ | ⟨hop, hn⟩ | ⟨hop, hkk⟩ | ⟨hop, hkk⟩ := reservedWord_iff.mp h
  · rw [decodeWord_of_op_five hop, if_neg hn]
  · rw [decodeWord_of_op_eight hop]
    simp only [List.mem_cons, List.not_mem_nil, or_false] at hn
    obtain hn | hn | hn | hn | hn | hn | hn := hn <;> simp [decodeGroup8, hn]
  · rw [decodeWord_of_op_nine hop, if_neg hn]
  · rw [decodeWord_of_op_E hop]
    simp only [List.mem_cons, List.not_mem_nil, or_false, not_or] at hkk
    simp [decodeGroupE, hkk]
  · rw [decodeWord_of_op_F hop]
    simp only [List.mem_cons, List.not_mem_nil, or_false, not_or] at hkk
    simp [decodeGroupF, hkk]

/-! ## Decode of encode (40_cycle.md R51) -/

theorem formatA_ne {op : Nibble} {nnn : Imm12} (h : nnn ≠ nnnField w) : formatA op nnn ≠ w := fun e =>
  h (by rw [← e, nnnField_formatA])

/-- The decoder undoes the encoder: the op field selects the group, then `n` or `kk` the row, and every operand field reads
back. Only `SYS` and `UNSUPPORTED` need well-formedness: their fields must not name another row. -/
theorem decodeWord_encode (i : Instr) (h : i.wellFormed = true) : decodeWord (encode i) = i := by
  cases i
  case cls | ret => rfl
  case sys nnn =>
    have hne : nnn ≠ 0x0E0#12 ∧ nnn ≠ 0x0EE#12 := by simpa [Instr.wellFormed] using h
    have hcls : formatA 0x0#4 nnn ≠ 0x00E0#16 := formatA_ne hne.1
    have hret : formatA 0x0#4 nnn ≠ 0x00EE#16 := formatA_ne hne.2
    rw [encode, decodeWord_of_op_zero (opField_formatA ..), decodeGroup0, if_neg hcls, if_neg hret, nnnField_formatA]
  case jp | call | ldI | jpV0 | seImm | sneImm | ldImm | addImm | rnd | drw => simp [encode, decodeWord]
  case seReg => rw [encode, decodeWord_of_op_five (opField_formatXYN ..)]; simp
  case sneReg => rw [encode, decodeWord_of_op_nine (opField_formatXYN ..)]; simp
  case ldReg | orReg | andReg | xorReg | addReg | subReg | shr | subn | shl =>
    rw [encode, decodeWord_of_op_eight (opField_formatXYN ..)]
    simp [decodeGroup8]
  case skp | sknp =>
    rw [encode, decodeWord_of_op_E (opField_formatXK ..)]
    simp [decodeGroupE]
  case ldVxDt | ldVxK | ldDtVx | ldStVx | addI | ldF | ldB | ldMemVx | ldVxMem =>
    rw [encode, decodeWord_of_op_F (opField_formatXK ..)]
    simp [decodeGroupF]
  case unsupported w => exact decodeWord_of_reservedWord h

/-- The two bytes of an instruction are put together to its word, high byte first (R26); the bytes after them stay. -/
theorem decode_encodeBytes_append (i : Instr) (rest : List Byte) :
    decode (encodeBytes i ++ rest) = .ok (decodeWord (encode i), rest) := by
  simp [encodeBytes, decode]

end Sys2Proof

namespace Sys2Proof.Machine

variable {s t : State}

/-! ## A store of registers, and the fetch after it -/

theorem exec_ldMemVx_of_lt {x : Nibble} (h : s.cpu.i.toNat + x.toNat < s.params.memLen) :
    exec (.ldMemVx x) s = .next (s.writeBytes s.cpu.i.toNat (s.regsUpTo x)) :=
  withinMemory_of_lt s _ _ h

/-- Byte `j` of a store of `V[0]` to `V[x]` is `V[j]` (43_index_memory.md R81). -/
theorem readByte_writeBytes_regsUpTo (s : State) (a : Nat) {x : Nibble} {j : Nat} (h : j ≤ x.toNat) :
    (s.writeBytes a (s.regsUpTo x)).readByte (a + j) = s.getV (BitVec.ofNat 4 j) := by
  rw [State.readByte_writeBytes, dif_pos ⟨Nat.le_add_right a j, by simp; omega⟩, State.getElem_regsUpTo,
    Nat.add_sub_cancel_left]

/-- The word where `V[0]` to `V[x]` were stored has `V[0]` as its high byte (R26). -/
theorem wordAt_writeBytes_regsUpTo (s : State) (a : Nat) {x : Nibble} (h : 1 ≤ x.toNat) :
    (s.writeBytes a (s.regsUpTo x)).wordAt a = wordOfBytes (s.getV 0x0#4) (s.getV 0x1#4) :=
  congrArg₂ wordOfBytes (readByte_writeBytes_regsUpTo s a (Nat.zero_le _)) (readByte_writeBytes_regsUpTo s a h)

/-! ## The host's writes -/

theorem hostMemWrite_of_lt {a : Nat} (b : Byte) (h : a < s.params.memLen) :
    hostMemWrite a b s = .next (s.writeByte a b) := if_pos h

theorem hostMemWrite_of_le {a : Nat} (b : Byte) (h : s.params.memLen ≤ a) :
    hostMemWrite a b s = .refused (.hostWriteOutside a s.params.memLen) := if_neg (Nat.not_lt.mpr h)

end Sys2Proof.Machine

/-! ## The statements of 20_memory.md settled -/

namespace Sys2Proof.Proofs

open Sys2Proof.Machine Sys2Proof.Safety

/-- Settles O2: the two bytes are put together to the instruction's word, and the decoder undoes the encoder on it. -/
theorem decodeOfEncodedBytes : Obligations.DecodeOfEncodedBytes := by
  intro i rest h
  rw [decode_encodeBytes_append, decodeWord_encode i h]

/-- Settles O38: `pc` equals `I`, so the fetch reads the first two of the bytes just stored. -/
theorem storedWordIsFetched : Obligations.StoredWordIsFetched := by
  intro x s t hx hin h hpc
  rw [exec_ldMemVx_of_lt hin] at h
  cases h
  refine ⟨_, _, fetch_of_lt _ ?_, ?_⟩
  · rw [hpc, State.writeBytes_params]
    omega
  · rw [hpc, wordAt_writeBytes_regsUpTo s _ hx, toNat_wordOfBytes]

/-- Settles O50: each write is one primitive edit, whose frame is `Edits.sameBut`. -/
theorem hostWritesOnePlace : Obligations.HostWritesOnePlace := fun v a b s =>
  ⟨⟨rfl, (Edits.refl.setPc v rfl).sameBut⟩,
    fun hin => ⟨_, hostMemWrite_of_lt b hin, by rw [State.readByte_writeByte, if_pos rfl],
      (Edits.refl.writeBytes (m := { memAt := a, memCount := 1 }) [b] rfl hin).sameBut⟩,
    hostMemWrite_of_le b⟩

end Sys2Proof.Proofs
end

section
/-! The decoder of 30_encoding.md: the tree of `decodeWord` against R40's table read in order (R39), and every word as the
encoding of a well-formed instruction, which says what the decoder answers. -/

namespace Sys2Proof

variable {w p : Word} {op : Nibble}

/-! ## Fields and masks (30_encoding.md R36) -/

/-- The op fields of which every word is the same instruction (R40). -/
def wholeOps : List Nibble := [0x1#4, 0x2#4, 0x3#4, 0x4#4, 0x6#4, 0x7#4, 0xA#4, 0xB#4, 0xC#4, 0xD#4]

/-- The op fields R40 divides further, and the ten that stand for one instruction each. -/
theorem opField_cases (w : Word) :
    opField w = 0x0#4 ∨ opField w = 0x5#4 ∨ opField w = 0x8#4 ∨ opField w = 0x9#4 ∨ opField w = 0xE#4 ∨
      opField w = 0xF#4 ∨ opField w ∈ wholeOps := by
  generalize opField w = op
  revert op
  decide

theorem opField_and (v w : Word) : opField (v &&& w) = opField v &&& opField w := BitVec.extractLsb'_and

theorem and_FFFF_eq_iff : w &&& 0xFFFF#16 = p ↔ w = p :=
  Iff.of_eq (congrArg (· = p) (BitVec.and_allOnes (x := w)))

theorem and_F000_eq (h : opField w = op) (hp : formatA op 0 = p) : w &&& 0xF000#16 = p := by
  rw [← formatA_fields w, Laws.mask_F000_formatA, h, hp]

theorem and_F00F_eq_iff {n : Nibble} (h : opField w = op) (hp : formatXYN op 0 0 n = p) :
    w &&& 0xF00F#16 = p ↔ nField w = n := by
  have hw : w &&& 0xF00F#16 = formatXYN op 0 0 (nField w) := by
    conv_lhs => rw [← formatXYN_fields w, Laws.mask_F00F_formatXYN, h]
  rw [hw, ← hp]
  exact ⟨fun e => by simpa using congrArg nField e, congrArg _⟩

theorem and_F0FF_eq_iff {kk : Byte} (h : opField w = op) (hp : formatXK op 0 kk = p) :
    w &&& 0xF0FF#16 = p ↔ kkField w = kk := by
  have hw : w &&& 0xF0FF#16 = formatXK op 0 (kkField w) := by
    conv_lhs => rw [← formatXK_fields w, Laws.mask_F0FF_formatXK, h]
  rw [hw, ← hp]
  exact ⟨fun e => by simpa using congrArg kkField e, congrArg _⟩

/-! ## A table read in order (R39) -/

section Table

variable {r : OpcodeRow} {rs : List OpcodeRow} {i j : Instr}

/-- What the first row of `rs` that selects the word builds from it. -/
def firstBuild (rs : List OpcodeRow) (w : Word) : Option Instr :=
  (rs.find? (fun r => r.selects w)).map (fun r => r.build w)

theorem exists_firstRow_of_firstBuild (h : firstBuild opcodeTable w = some i) :
    ∃ r, firstRow w = some r ∧ i = r.build w := by
  obtain ⟨r, hr, hb⟩ := Option.map_eq_some_iff.mp h
  exact ⟨r, hr, hb.symm⟩

theorem firstBuild_cons_of_eq (h : w &&& r.mask = r.pattern) : firstBuild (r :: rs) w = some (r.build w) := by
  simp [firstBuild, OpcodeRow.selects, h]

theorem firstBuild_cons_of_ne (h : w &&& r.mask ≠ r.pattern) : firstBuild (r :: rs) w = firstBuild rs w := by
  simp [firstBuild, OpcodeRow.selects, h]

/-- A row is one `if` of the decoder's tree. -/
theorem firstBuild_cons_eq_ite {c : Prop} [Decidable c] (hr : w &&& r.mask = r.pattern ↔ c)
    (ht : firstBuild rs w = some j) : firstBuild (r :: rs) w = some (if c then r.build w else j) := by
  split_ifs with h
  · exact firstBuild_cons_of_eq (hr.mpr h)
  · exact (firstBuild_cons_of_ne (mt hr.mp h)).trans ht

/-- The rows whose fixed op bits are those of `op`. -/
def rowsOfOp (op : Nibble) : List OpcodeRow := opcodeTable.filter (fun r => op &&& opField r.mask = opField r.pattern)

/-- Only a row of the word's own op can select it. -/
theorem firstBuild_rowsOfOp (h : opField w = op) : firstBuild (rowsOfOp op) w = firstBuild opcodeTable w := by
  have hop (r : OpcodeRow) (hr : r.selects w = true) : op &&& opField r.mask = opField r.pattern := by
    rw [← h, ← opField_and, of_decide_eq_true hr]
  rw [firstBuild, rowsOfOp, List.find?_filter, firstBuild]
  congr 2
  funext r
  cases hr : r.selects w
  · simp
  · simp [hop r hr]

end Table

/-! ## The decoder is the table -/

theorem firstBuild_unsupported (w : Word) : firstBuild [opcodeRowsX[9]] w = some (.unsupported w) :=
  firstBuild_cons_of_eq (BitVec.and_zero (x := w))

/-- A row that fixes `op` alone takes every word of that op. -/
theorem firstBuild_of_row_F000 {m : String} {b : Word → Instr} {rs : List OpcodeRow} (h : opField w = op)
    (hrows : rowsOfOp op = ⟨0xF000#16, formatA op 0, m, b⟩ :: rs) (hb : decodeWord w = b w) :
    firstBuild (rowsOfOp op) w = some (decodeWord w) := by
  rw [hrows, hb]
  exact firstBuild_cons_of_eq (and_F000_eq h rfl)

theorem firstBuild_of_wholeOps (hop : op ∈ wholeOps) (h : opField w = op) :
    firstBuild (rowsOfOp op) w = some (decodeWord w) := by
  simp only [wholeOps, List.mem_cons, List.not_mem_nil, or_false] at hop
  obtain rfl | rfl | rfl | rfl | rfl | rfl | rfl | rfl | rfl | rfl := hop <;>
    exact firstBuild_of_row_F000 h rfl (by simp [decodeWord, h])

theorem firstBuild_of_op_zero (h : opField w = 0x0#4) : firstBuild (rowsOfOp 0x0#4) w = some (decodeGroup0 w) :=
  firstBuild_cons_eq_ite and_FFFF_eq_iff <| firstBuild_cons_eq_ite and_FFFF_eq_iff <|
    firstBuild_cons_of_eq (and_F000_eq h rfl)

theorem firstBuild_of_op_eight (h : opField w = 0x8#4) : firstBuild (rowsOfOp 0x8#4) w = some (decodeGroup8 w) := by
  unfold decodeGroup8
  iterate 9 refine firstBuild_cons_eq_ite (and_F00F_eq_iff h rfl) ?_
  exact firstBuild_unsupported w

theorem firstBuild_of_op_E (h : opField w = 0xE#4) : firstBuild (rowsOfOp 0xE#4) w = some (decodeGroupE w) := by
  unfold decodeGroupE
  iterate 2 refine firstBuild_cons_eq_ite (and_F0FF_eq_iff h rfl) ?_
  exact firstBuild_unsupported w

theorem firstBuild_of_op_F (h : opField w = 0xF#4) : firstBuild (rowsOfOp 0xF#4) w = some (decodeGroupF w) := by
  unfold decodeGroupF
  iterate 9 refine firstBuild_cons_eq_ite (and_F0FF_eq_iff h rfl) ?_
  exact firstBuild_unsupported w

/-- Read in order, the table is the tree of `decodeWord` (R39, R40): the op field leaves one branch of each. -/
theorem firstBuild_opcodeTable (w : Word) : firstBuild opcodeTable w = some (decodeWord w) := by
  rw [← firstBuild_rowsOfOp rfl]
  obtain h | h | h | h | h | h | h := opField_cases w
  · rw [h, decodeWord_of_op_zero h, firstBuild_of_op_zero h]
  · rw [h, decodeWord_of_op_five h]
    exact firstBuild_cons_eq_ite (and_F00F_eq_iff h rfl) (firstBuild_unsupported w)
  · rw [h, decodeWord_of_op_eight h, firstBuild_of_op_eight h]
  · rw [h, decodeWord_of_op_nine h]
    exact firstBuild_cons_eq_ite (and_F00F_eq_iff h rfl) (firstBuild_unsupported w)
  · rw [h, decodeWord_of_op_E h, firstBuild_of_op_E h]
  · rw [h, decodeWord_of_op_F h, firstBuild_of_op_F h]
  · exact firstBuild_of_wholeOps h rfl

/-! ## Every word is the encoding of what it decodes to (40_cycle.md R51) -/

theorem formatA_of_op (h : opField w = op) : formatA op (nnnField w) = w := by rw [← h, formatA_fields]

theorem formatXK_of_op_kk {kk : Byte} (h : opField w = op) (hkk : kkField w = kk) : formatXK op (xField w) kk = w := by
  rw [← h, ← hkk, formatXK_fields]

theorem formatXYN_of_op_n {n : Nibble} (h : opField w = op) (hn : nField w = n) :
    formatXYN op (xField w) (yField w) n = w := by
  rw [← h, ← hn, formatXYN_fields]

/-- Under op 8 the unreserved words are those of the nine rows of the register-to-register group. -/
theorem nField_mem_of_op_eight (h : opField w = 0x8#4) (hr : reservedWord w ≠ true) :
    nField w ∈ [0x0#4, 0x1#4, 0x2#4, 0x3#4, 0x4#4, 0x5#4, 0x6#4, 0x7#4, 0xE#4] := by
  have hn : nField w ∉ [0x8#4, 0x9#4, 0xA#4, 0xB#4, 0xC#4, 0xD#4, 0xF#4] := fun hn =>
    hr (reservedWord_iff.mpr (.inr (.inl ⟨h, hn⟩)))
  generalize nField w = n at hn
  revert n
  decide

theorem wellFormed_sys_iff {nnn : Imm12} : (Instr.sys nnn).wellFormed = true ↔ nnn ≠ 0x0E0#12 ∧ nnn ≠ 0x0EE#12 := by
  simp [Instr.wellFormed]

theorem encode_decodeGroup0 (h : opField w = 0x0#4) :
    encode (decodeGroup0 w) = w ∧ (decodeGroup0 w).wellFormed = true := by
  unfold decodeGroup0
  split_ifs with hcls hret
  · exact ⟨hcls.symm, rfl⟩
  · exact ⟨hret.symm, rfl⟩
  · have hw := formatA_of_op h
    exact ⟨hw, wellFormed_sys_iff.mpr
      ⟨fun e => hcls (by rw [← hw, e]; rfl), fun e => hret (by rw [← hw, e]; rfl)⟩⟩

theorem encode_decodeGroup8 (h : opField w = 0x8#4) (hr : reservedWord w ≠ true) :
    encode (decodeGroup8 w) = w ∧ (decodeGroup8 w).wellFormed = true := by
  have hn := nField_mem_of_op_eight h hr
  simp only [List.mem_cons, List.not_mem_nil, or_false] at hn
  obtain hn | hn | hn | hn | hn | hn | hn | hn | hn := hn <;>
    simp [decodeGroup8, hn, encode, formatXYN_of_op_n h hn, Instr.wellFormed]

theorem encode_decodeGroupE (h : opField w = 0xE#4) (hr : reservedWord w ≠ true) :
    encode (decodeGroupE w) = w ∧ (decodeGroupE w).wellFormed = true := by
  have hkk : kkField w ∈ [0x9E#8, 0xA1#8] :=
    not_not.mp fun hkk => hr (reservedWord_iff.mpr (.inr (.inr (.inr (.inl ⟨h, hkk⟩)))))
  simp only [List.mem_cons, List.not_mem_nil, or_false] at hkk
  obtain hkk | hkk := hkk <;> simp [decodeGroupE, hkk, encode, formatXK_of_op_kk h hkk, Instr.wellFormed]

theorem encode_decodeGroupF (h : opField w = 0xF#4) (hr : reservedWord w ≠ true) :
    encode (decodeGroupF w) = w ∧ (decodeGroupF w).wellFormed = true := by
  have hkk : kkField w ∈ [0x07#8, 0x0A#8, 0x15#8, 0x18#8, 0x1E#8, 0x29#8, 0x33#8, 0x55#8, 0x65#8] :=
    not_not.mp fun hkk => hr (reservedWord_iff.mpr (.inr (.inr (.inr (.inr ⟨h, hkk⟩)))))
  simp only [List.mem_cons, List.not_mem_nil, or_false] at hkk
  obtain hkk | hkk | hkk | hkk | hkk | hkk | hkk | hkk | hkk := hkk <;>
    simp [decodeGroupF, hkk, encode, formatXK_of_op_kk h hkk, Instr.wellFormed]

theorem encode_decodeWord_of_wholeOps (h : opField w ∈ wholeOps) :
    encode (decodeWord w) = w ∧ (decodeWord w).wellFormed = true := by
  simp only [wholeOps, List.mem_cons, List.not_mem_nil, or_false] at h
  obtain h | h | h | h | h | h | h | h | h | h := h <;>
    simp [decodeWord, h, encode, formatA_of_op h, formatXK_of_op_kk h rfl, formatXYN_of_op_n h rfl, Instr.wellFormed]

/-- The encoder undoes the decoder, and what the decoder answers is well-formed: a reserved word is kept whole, every other
has the `n` or `kk` of one row of its op field. -/
theorem encode_decodeWord (w : Word) : encode (decodeWord w) = w ∧ (decodeWord w).wellFormed = true := by
  by_cases hr : reservedWord w = true
  · rw [decodeWord_of_reservedWord hr]
    exact ⟨rfl, hr⟩
  obtain h | h | h | h | h | h | h := opField_cases w
  · exact decodeWord_of_op_zero h ▸ encode_decodeGroup0 h
  · have hn : nField w = 0x0#4 := by simpa [reservedWord_iff, h] using hr
    rw [decodeWord_of_op_five h, if_pos hn]
    exact ⟨formatXYN_of_op_n h hn, rfl⟩
  · exact decodeWord_of_op_eight h ▸ encode_decodeGroup8 h hr
  · have hn : nField w = 0x0#4 := by simpa [reservedWord_iff, h] using hr
    rw [decodeWord_of_op_nine h, if_pos hn]
    exact ⟨formatXYN_of_op_n h hn, rfl⟩
  · exact decodeWord_of_op_E h ▸ encode_decodeGroupE h hr
  · exact decodeWord_of_op_F h ▸ encode_decodeGroupF h hr
  · exact encode_decodeWord_of_wholeOps h

/-! ## The words of `UNSUPPORTED` and of `SYS` (30_encoding.md R41) -/

theorem toNat_lt_iff_op_zero (w : Word) : w.toNat < 0x1000 ↔ opField w = 0x0#4 := by
  have hw := toNat_formatA (opField w) (nnnField w)
  have hnnn := (nnnField w).isLt
  rw [formatA_fields] at hw
  rw [BitVec.toNat_eq, BitVec.toNat_ofNat]
  omega

theorem exists_unsupported_iff : (∃ v, decodeWord w = .unsupported v) ↔ reservedWord w = true := by
  refine ⟨fun ⟨v, hv⟩ => ?_, fun h => ⟨w, decodeWord_of_reservedWord h⟩⟩
  obtain ⟨hw, hwf⟩ := encode_decodeWord w
  rw [hv] at hw hwf
  exact hw ▸ hwf

theorem exists_sys_iff : (∃ nnn, decodeWord w = .sys nnn) ↔ w.toNat < 0x1000 ∧ w ≠ 0x00E0#16 ∧ w ≠ 0x00EE#16 := by
  rw [toNat_lt_iff_op_zero]
  constructor
  · rintro ⟨nnn, hi⟩
    obtain ⟨hw, hwf⟩ := encode_decodeWord w
    rw [hi] at hw hwf
    obtain ⟨hcls, hret⟩ := wellFormed_sys_iff.mp hwf
    rw [← hw]
    exact ⟨opField_formatA .., formatA_ne hcls, formatA_ne hret⟩
  · rintro ⟨h, hcls, hret⟩
    exact ⟨nnnField w, by rw [decodeWord_of_op_zero h, decodeGroup0, if_neg hcls, if_neg hret]⟩

end Sys2Proof

/-! ## The statements of 30_encoding.md settled -/

namespace Sys2Proof.Proofs

/-- Settles O4: read in order, the table is the decoder's tree. -/
theorem decodeIsFirstMatchingRow : Obligations.DecodeIsFirstMatchingRow := fun w =>
  exists_firstRow_of_firstBuild (firstBuild_opcodeTable w)

/-- Settles O5: the decoder's answer is well-formed and encodes to the word. -/
theorem reservedWordsDecodeUnsupported : Obligations.ReservedWordsDecodeUnsupported := fun _ =>
  ⟨exists_unsupported_iff, exists_sys_iff⟩

/-- Settles O1: seventeen fixed words, each decoded by evaluation. -/
theorem specWordsDecodeAsListed : Obligations.SpecWordsDecodeAsListed := by
  unfold Obligations.SpecWordsDecodeAsListed
  decide

end Sys2Proof.Proofs
end

section
/-! The cycle of 40_cycle.md: what the next event finds where it fetches (R45, R46), which errors end a step (R48), that an
instruction completes or writes nothing (R47), and the stack primitives (R49, R50). -/

namespace Sys2Proof.Machine

open Sys2Proof.Safety

variable {i : Instr} {s t u : State} {v : Word}

/-! ## Fetch (R45) -/

/-- The number a word in memory is: the byte at the lower address counts 256 (20_memory.md R26). -/
theorem toNat_wordAt (s : State) (a : Nat) :
    (s.wordAt a).toNat = 256 * (s.readByte a).toNat + (s.readByte (a + 1)).toNat := toNat_wordOfBytes _ _

theorem toNat_advancePc_pc (s : State) : s.advancePc.cpu.pc.toNat = (s.cpu.pc.toNat + 2) % 65536 :=
  BitVec.toNat_add s.cpu.pc 2

theorem advancePc_sameBut (s : State) : SameBut { pc := true } s s.advancePc := (Edits.refl.setPc _ rfl).sameBut

/-! ## Taking an event off -/

@[simp] theorem issueEvent_cpu (s : State) : (issueEvent s).cpu = s.cpu := by
  obtain ⟨es, e⟩ | ⟨c, e⟩ := issueEvent_cases s <;> rw [e] <;> rfl

@[simp] theorem issueEvent_mem (s : State) : (issueEvent s).mem = s.mem := by
  obtain ⟨es, e⟩ | ⟨c, e⟩ := issueEvent_cases s <;> rw [e] <;> rfl

@[simp] theorem issueEvent_params (s : State) : (issueEvent s).params = s.params := by
  obtain ⟨es, e⟩ | ⟨c, e⟩ := issueEvent_cases s <;> rw [e] <;> rfl

@[simp] theorem issueEvent_policy (s : State) : (issueEvent s).driver.policy = s.driver.policy := by
  obtain ⟨es, e⟩ | ⟨c, e⟩ := issueEvent_cases s <;> rw [e] <;> rfl

@[simp] theorem issueEvent_wordAt (s : State) (a : Nat) : (issueEvent s).wordAt a = s.wordAt a := by
  simp [State.wordAt, State.readByte]

theorem nextEvent_of_scheduled {e : Event} {es : List Event} (h : s.driver.schedule = e :: es) : nextEvent s = e := by
  simp [nextEvent, h]

theorem issueEvent_of_scheduled {e : Event} {es : List Event} (h : s.driver.schedule = e :: es) :
    issueEvent s = s.setSchedule es := by
  simp [issueEvent, h]

/-- Whatever the driving loop has in store, a `Step` executes the instruction that stands at `pc` (R46 to R48). -/
theorem step_of_nextEvent_of_decode (hn : nextEvent s = .step) (hpc : s.cpu.pc.toNat + 1 < s.params.memLen)
    (hdec : decode (s.readBytes s.cpu.pc.toNat 2) = .ok (i, [])) :
    step s = afterCycle (exec i ((issueEvent s).advancePc.setAnswer .ok)) := by
  rw [decode_readBytes_two] at hdec
  cases hdec
  rw [step_of_nextEvent s _ hn, runEvent, cycle_of_lt (issueEvent s) (by simpa using hpc), issueEvent_wordAt,
    issueEvent_cpu]

/-! ## An instruction never stops the machine (R47, R48) -/

theorem withinMemory_next {a : Nat} {body : Result} (h : ∃ t, body = .next t) :
    ∃ t, withinMemory a s body = .next t := by
  obtain ⟨-, e⟩ | ⟨-, e⟩ := withinMemory_cases s a body
  · rwa [e]
  · exact ⟨_, e⟩

theorem execRet_next (s : State) : ∃ t, execRet s = .next t := by
  unfold execRet
  split
  · exact ⟨_, rfl⟩
  · exact withinMemory_next ⟨_, rfl⟩

theorem execCall_next (nnn : Imm12) (s : State) : ∃ t, execCall nnn s = .next t := by
  unfold execCall
  split
  · exact ⟨_, rfl⟩
  · exact withinMemory_next ⟨_, rfl⟩

theorem execDrw_next (x y n : Nibble) (s : State) : ∃ t, execDrw x y n s = .next t := by
  unfold execDrw
  split
  · exact drawRequest_next ..
  · exact withinMemory_next (drawRequest_next ..)

/-- An operand that names none of sixteen things is an error, any other an effect; no key pressed is a wait. Each branch
answers a next state. -/
theorem exec_next (i : Instr) (s : State) : ∃ t, exec i s = .next t := by
  cases i
  case ret => exact execRet_next s
  case call nnn => exact execCall_next nnn s
  case drw x y n => exact execDrw_next x y n s
  case jp | jpV0 | ldB | ldMemVx | ldVxMem => exact withinMemory_next ⟨_, rfl⟩
  case skp => rw [exec, execSkp]; split <;> exact ⟨_, rfl⟩
  case sknp => rw [exec, execSknp]; split <;> exact ⟨_, rfl⟩
  case ldF => rw [exec, execLdF]; split <;> exact ⟨_, rfl⟩
  case ldVxK => rw [exec, execLdVxK]; split <;> exact ⟨_, rfl⟩
  all_goals exact ⟨_, rfl⟩

theorem cycle_next (s : State) : ∃ t, cycle s = .next t := by
  by_cases h : s.cpu.pc.toNat + 1 < s.params.memLen
  · rw [cycle_of_lt s h]
    exact exec_next _ _
  · exact ⟨_, cycle_of_le s (Nat.not_lt.mp h)⟩

/-! ## What stops a step (60_exceptions.md R102, 20_memory.md R24) -/

theorem driverReacts_fault_cases {r : Fault} (h : driverReacts t = .fault r) :
    t.driver.policy = .halt ∧ ∃ e, r = .halted e := by
  unfold driverReacts at h
  split at h
  · cases h
  · split at h <;> cases h
    exact ⟨‹_›, _, rfl⟩

theorem driverReacts_ne_refused (t : State) (r : Refusal) : driverReacts t ≠ .refused r := by
  unfold driverReacts
  split
  · exact nofun
  · split <;> exact nofun

theorem runEvent_step_eq_driverReacts (h : cycle s = .next t) : runEvent .step s = driverReacts t := by
  rw [runEvent, h, afterCycle]

theorem hostMemWrite_ne_fault (a : Nat) (b : Byte) (s : State) (r : Fault) : hostMemWrite a b s ≠ .fault r := by
  unfold hostMemWrite
  split <;> exact nofun

theorem hostMemWrite_refused_cases {a : Nat} {b : Byte} {r : Refusal} (h : hostMemWrite a b s = .refused r) :
    s.params.memLen ≤ a ∧ r = .hostWriteOutside a s.params.memLen := by
  unfold hostMemWrite at h
  split at h <;> cases h
  exact ⟨Nat.not_lt.mp ‹_›, rfl⟩

theorem runEvent_fault_cases {e : Event} {r : Fault} (h : runEvent e s = .fault r) :
    e = .step ∧ s.driver.policy = .halt ∧ ∃ err, r = .halted err := by
  cases e with
  | step =>
    obtain ⟨t, ht⟩ := cycle_next s
    rw [runEvent_step_eq_driverReacts ht] at h
    exact ⟨rfl, cycle_policy ht ▸ driverReacts_fault_cases h⟩
  | hostMemWrite a b => exact absurd h (hostMemWrite_ne_fault a b s r)
  | tick | reset | keyWrite | hostLoadPC => cases h

theorem runEvent_refused_cases {e : Event} {r : Refusal} (h : runEvent e s = .refused r) :
    ∃ a b, e = .hostMemWrite a b ∧ s.params.memLen ≤ a ∧ r = .hostWriteOutside a s.params.memLen := by
  cases e with
  | step =>
    obtain ⟨t, ht⟩ := cycle_next s
    rw [runEvent_step_eq_driverReacts ht] at h
    exact absurd h (driverReacts_ne_refused t r)
  | hostMemWrite a b => exact ⟨a, b, rfl, hostMemWrite_refused_cases h⟩
  | tick | reset | keyWrite | hostLoadPC => cases h

/-! ## Complete in full, or raise and write nothing (R47) -/

theorem skipIf_driver (c : Bool) (s : State) : (skipIf c s).driver = s.driver := by
  cases c <;> rfl

/-- The state after the error `e` raised in `s`: only the recorded answer differs; a screen other than the reference one has
also counted the request it refused (log 7). -/
def RaisedIn (s : State) (e : Error) (t : State) : Prop :=
  t = s.setAnswer (.error e) ∨
    ∃ n, s.screen = .external n ∧ t = (s.setScreen (.external (n + 1))).setAnswer (.error e)

theorem RaisedIn.answer {e : Error} (h : RaisedIn s e t) : t.driver.answer = .error e := by
  obtain rfl | ⟨n, -, rfl⟩ := h <;> rfl

theorem withinMemory_answer_cases {a : Nat} (h : withinMemory a s (.next u) = .next t)
    (hu : u.driver.answer = s.driver.answer) :
    t.driver.answer = s.driver.answer ∨ ∃ e, BoundsError s e ∧ RaisedIn s e t := by
  obtain ⟨-, rfl⟩ | ⟨hle, rfl⟩ := withinMemory_next_cases _ _ _ _ h
  · exact .inl hu
  · exact .inr ⟨_, ⟨a, hle, rfl⟩, .inl rfl⟩

theorem execDrw_answer_cases {x y n : Nibble} (h : execDrw x y n s = .next t) :
    t.driver.answer = s.driver.answer ∨ ∃ e, MayRaise (.drw x y n) s e ∧ RaisedIn s e t := by
  obtain h | ⟨-, hle, rfl⟩ := execDrw_cases _ _ _ _ _ h
  · obtain ⟨c, -, rfl⟩ | ⟨hnone, rfl⟩ := drawRequest_cases _ _ _ _ _ _ h
    · exact .inl rfl
    · obtain ⟨k, hk, hafter⟩ := drawAnswer_eq_none _ _ _ _ hnone
      exact .inr ⟨_, .inr rfl, .inr ⟨k, hk, by rw [hafter]⟩⟩
  · exact .inr ⟨_, .inl ⟨_, hle, rfl⟩, .inl rfl⟩

/-- An instruction leaves the recorded answer alone, or raises an error R98 lists for it and writes nothing else. -/
theorem exec_answer_cases (h : exec i s = .next t) :
    t.driver.answer = s.driver.answer ∨ ∃ e, MayRaise i s e ∧ RaisedIn s e t := by
  cases i
  case sys | unsupported => cases h; exact .inr ⟨_, rfl, .inl rfl⟩
  case jp | jpV0 | ldB | ldMemVx => exact withinMemory_answer_cases h rfl
  case ldVxMem => exact withinMemory_answer_cases h (by rw [State.setRegsFrom_eq])
  case ret =>
    obtain ⟨-, rfl⟩ | ⟨-, -, rfl⟩ | ⟨-, hle, rfl⟩ := execRet_cases _ _ h
    · exact .inr ⟨_, .inl rfl, .inl rfl⟩
    · exact .inl rfl
    · exact .inr ⟨_, .inr ⟨_, hle, rfl⟩, .inl rfl⟩
  case call =>
    obtain ⟨-, rfl⟩ | ⟨-, -, rfl⟩ | ⟨-, hle, rfl⟩ := execCall_cases _ _ _ h
    · exact .inr ⟨_, .inl rfl, .inl rfl⟩
    · exact .inl rfl
    · exact .inr ⟨_, .inr ⟨_, hle, rfl⟩, .inl rfl⟩
  case skp =>
    obtain ⟨c, rfl⟩ | rfl := execSkp_cases _ _ _ h
    · exact .inl (by rw [skipIf_driver])
    · exact .inr ⟨_, rfl, .inl rfl⟩
  case sknp =>
    obtain ⟨c, rfl⟩ | rfl := execSknp_cases _ _ _ h
    · exact .inl (by rw [skipIf_driver])
    · exact .inr ⟨_, rfl, .inl rfl⟩
  case ldF =>
    obtain ⟨w, rfl⟩ | rfl := execLdF_cases _ _ _ h
    · exact .inl rfl
    · exact .inr ⟨_, rfl, .inl rfl⟩
  case drw => exact execDrw_answer_cases h
  all_goals exact .inl ((exec_sameBut h).answer rfl)

/-- From the answer `Ok`, an error in the answer is one the instruction raised. -/
theorem exec_error_cases {e : Error} (hok : s.driver.answer = .ok) (h : exec i s = .next t)
    (he : t.driver.answer = .error e) : MayRaise i s e ∧ RaisedIn s e t := by
  obtain hsame | ⟨e', hmay, hraised⟩ := exec_answer_cases h
  · rw [hsame, hok] at he
    cases he
  · rw [hraised.answer] at he
    cases he
    exact ⟨hmay, hraised⟩

/-! ## The stack primitives (R49, R50) -/

theorem toNat_add_one_of_not_full {n : Nibble} (h : n ≠ 0xF#4) : (n + 1).toNat = n.toNat + 1 := by bv_omega

theorem toNat_sub_one_of_not_empty {n : Nibble} (h : n ≠ 0x0#4) : (n - 1).toNat + 1 = n.toNat := by bv_omega

/-- `Push` writes `sp` and the entry at the new `sp` only. -/
theorem push_sameBut (v : Word) (h : s.cpu.sp ≠ 0xF#4) :
    SameBut { sp := true, entry := some (s.cpu.sp + 1) } s
      ((s.setSp (s.cpu.sp + 1)).setStackEntry (s.cpu.sp + 1) v) :=
  ((Edits.refl.setSp _ rfl).setStackEntry _ v rfl (add_one_ne_zero_of_not_full h)).sameBut

/-- A push below capacity, as one number more on the stack, a new top and every entry below it kept. -/
theorem push_next (v : Word) (h : s.cpu.sp ≠ 0xF#4) :
    ∃ t, push v s = .ok t ∧ t.cpu.sp = s.cpu.sp + 1 ∧ t.stackEntry t.cpu.sp = v ∧
      SameBut { sp := true, entry := some t.cpu.sp } s t :=
  ⟨_, push_of_not_full s v h, rfl, by rw [State.stackEntry_setStackEntry]; exact if_pos rfl, push_sameBut v h⟩

theorem pushAll_cons_of_push {vs : List Word} (h : push v s = .ok t) : pushAll (v :: vs) s = pushAll vs t := by
  rw [pushAll, h]

theorem popMany_succ_eq_ok {n : Nat} {vs : List Word} : popMany (n + 1) s = .ok (vs, u) ↔
    ∃ v t ws, pop s = .ok (v, t) ∧ popMany n t = .ok (ws, u) ∧ vs = v :: ws := by
  rw [popMany]
  constructor
  · intro h
    split at h
    · cases h
    · split at h <;> cases h
      exact ⟨_, _, _, ‹_›, ‹_›, rfl⟩
  · rintro ⟨v, t, ws, hp, hm, rfl⟩
    simp [hp, hm]

/-- One more pop after `n` gives its word last. -/
theorem popMany_succ_of_pop_last {n : Nat} {vs : List Word} (h : popMany n s = .ok (vs, t)) (hp : pop t = .ok (v, u)) :
    popMany (n + 1) s = .ok (vs ++ [v], u) := by
  induction n generalizing s vs with
  | zero =>
    cases h
    exact popMany_succ_eq_ok.mpr ⟨_, _, _, hp, rfl, rfl⟩
  | succ n ih =>
    obtain ⟨x, s', ws, hx, hws, rfl⟩ := popMany_succ_eq_ok.mp h
    exact popMany_succ_eq_ok.mpr ⟨x, s', _, hx, ih hws, rfl⟩

end Sys2Proof.Machine

/-! ## The statements of 40_cycle.md settled -/

namespace Sys2Proof.Proofs

open Sys2Proof.Machine Sys2Proof.Safety

/-- Settles O3: every word is the encoding of the well-formed instruction it decodes to. -/
theorem encodeOfDecodedWord : Obligations.EncodeOfDecodedWord := encode_decodeWord

/-- Settles O11: a cycle answers a next state, so only the driving loop's reaction faults, and only a host write refuses. -/
theorem onlyHaltOrBadHostWriteStops : Obligations.OnlyHaltOrBadHostWriteStops := by
  intro s
  constructor
  · intro r h
    simpa using runEvent_fault_cases h
  · intro r h
    simpa using runEvent_refused_cases h

/-- Settles O12, from the outcome of every instruction's meaning. -/
theorem everyInstructionAnswersNext : Obligations.EveryInstructionAnswersNext := exec_next

/-- Settles O14: an instruction that raises does nothing but raise. -/
theorem failingInstructionWritesNothing : Obligations.FailingInstructionWritesNothing :=
  fun _ _ _ _ hok h he => (exec_error_cases hok h he).2

/-- Settles O18, by induction on the words: the words pushed after the first are popped before it, and leave it on top. -/
theorem pushedWordsPopInReverse : Obligations.PushedWordsPopInReverse := by
  intro vs
  induction vs with
  | nil => exact fun s _ => ⟨s, s, rfl, rfl, rfl, fun _ _ => rfl⟩
  | cons v vs ih =>
    intro s hlen
    rw [List.length_cons] at hlen
    have hsp : s.cpu.sp ≠ 0xF#4 := fun e => by rw [e] at hlen; simp at hlen
    obtain ⟨s₁, hpush, hsp₁, htop, hframe⟩ := push_next v hsp
    have hnat : s₁.cpu.sp.toNat = s.cpu.sp.toNat + 1 := hsp₁ ▸ toNat_add_one_of_not_full hsp
    obtain ⟨t, u, hall, hmany, hu, hkept⟩ := ih s₁ (by omega)
    have hpop : pop u = .ok (v, u.setSp (u.cpu.sp - 1)) := by
      have hne : u.cpu.sp ≠ 0x0#4 := hu ▸ hsp₁ ▸ add_one_ne_zero_of_not_full hsp
      rw [pop_of_not_empty u hne, hu, hkept _ le_rfl, htop]
    refine ⟨t, u.setSp (u.cpu.sp - 1), (pushAll_cons_of_push hpush).trans hall, ?_, ?_, fun j hj => ?_⟩
    · rw [List.reverse_cons]
      exact popMany_succ_of_pop_last hmany hpop
    · rw [State.setSp_cpu_sp, hu, hsp₁, BitVec.add_sub_cancel]
    · have hj₁ : j ≠ s₁.cpu.sp := fun e => by rw [e] at hj; omega
      rw [State.setSp_stackEntry, hkept j (by omega), hframe.callStack j (by simpa using hj₁)]

/-- Settles O6, from the two cases of the fetch. -/
theorem fetchReadsWordAndAdvances : Obligations.FetchReadsWordAndAdvances := fun s =>
  ⟨fun h => ⟨fetch_of_le s h, cycle_of_le s h⟩,
    fun h => ⟨_, _, fetch_of_lt s h, toNat_wordAt s _, toNat_advancePc_pc s, advancePc_sameBut s⟩⟩

/-- Settles O7: the third clause says it of every driving loop, of which the other two name one each. -/
theorem stepRunsDecodedInstruction : Obligations.StepRunsDecodedInstruction := by
  intro s i hpc hdec
  refine ⟨fun hs => step_of_decode hs hpc hdec, fun es hes => ?_, fun hn => step_of_nextEvent_of_decode hn hpc hdec⟩
  rw [step_of_nextEvent_of_decode (nextEvent_of_scheduled hes) hpc hdec, issueEvent_of_scheduled hes]

/-- Settles O16: below capacity adding one to `sp` does not wrap. -/
theorem pushIncrementsThenWrites : Obligations.PushIncrementsThenWrites := by
  refine fun v s => ⟨push_of_full s v, fun h => ?_⟩
  obtain ⟨t, hpush, hsp, htop, hframe⟩ := push_next v h
  exact ⟨t, hpush, hsp ▸ toNat_add_one_of_not_full h, htop, hsp ▸ add_one_ne_zero_of_not_full h, hframe⟩

/-- Settles O17: with an entry to pop taking one from `sp` does not wrap. -/
theorem popReadsThenDecrements : Obligations.PopReadsThenDecrements := fun s =>
  ⟨pop_of_empty s, fun h => ⟨_, pop_of_not_empty s h, toNat_sub_one_of_not_empty h, (Edits.refl.setSp _ rfl).sameBut⟩⟩

end Sys2Proof.Proofs
end

section
/-! The control flow of 41_control_flow.md: a jump that checks its target before it writes `pc` (R52 (a)), the skip (R52 (b)),
and what `RET` and `CALL` do after each outcome of their stack test. -/

namespace Sys2Proof.Machine

open Sys2Proof.Safety

variable {m : MayChange} {s t : State}

/-! ## The checked jump (R52) -/

theorem sameBut_setPc (h : SameBut m s t) (w : Word) : SameBut { m with pc := true } s (t.setPc w) :=
  { h with pc := nofun }

/-- A jump to `w` either raises the error of the check, with nothing written, or loads `pc` and nothing else. -/
theorem withinMemory_setPc {a : Nat} {w : Word} (hw : w.toNat = a) (s : State) :
    (s.params.memLen ≤ a →
      withinMemory a s (.next (s.setPc w)) = .next (s.setAnswer (.error (.addressOutOfBounds a s.params.memLen)))) ∧
    (a < s.params.memLen →
      ∃ t, withinMemory a s (.next (s.setPc w)) = .next t ∧ t.cpu.pc.toNat = a ∧ SameBut { pc := true } s t) :=
  ⟨withinMemory_of_le s a _, fun h => ⟨_, withinMemory_of_lt s a _ h, hw, sameBut_setPc (sameBut_refl {} s) w⟩⟩

/-- The greatest sum, 4095 + 255, is a word, so `JP V0` never loses a bit of its target. -/
theorem toNat_indexedTarget (nnn : Imm12) (s : State) :
    (BitVec.ofNat 16 (indexedTarget nnn s)).toNat = indexedTarget nnn s := by
  have hbound : indexedTarget nnn s < 4096 + 256 := Nat.add_lt_add nnn.isLt (s.getV 0x0#4).isLt
  rw [BitVec.toNat_ofNat]
  exact Nat.mod_eq_of_lt (hbound.trans (by decide))

/-! ## The skip (R52) -/

theorem skipIf_sameBut (c : Bool) (s : State) : SameBut { pc := true } s (skipIf c s) :=
  (Edits.refl.skipIf c rfl).sameBut

theorem toNat_skipIf_pc (c : Bool) (s : State) :
    (skipIf c s).cpu.pc.toNat = if c then (s.cpu.pc.toNat + 2) % 65536 else s.cpu.pc.toNat := by
  cases c
  · rfl
  · exact toNat_advancePc_pc s

/-! ## `RET` and `CALL` (R54, R56) -/

theorem exec_ret_of_empty (h : s.cpu.sp = 0x0#4) : exec .ret s = raise .stackUnderflow s := by
  rw [exec, execRet, pop_of_empty s h]

/-- With an entry to pop, `RET` is a checked jump to it. -/
theorem exec_ret_of_not_empty (h : s.cpu.sp ≠ 0x0#4) :
    exec .ret s = withinMemory (s.stackEntry s.cpu.sp).toNat s
      (.next ((s.setSp (s.cpu.sp - 1)).setPc (s.stackEntry s.cpu.sp))) := by
  rw [exec, execRet, pop_of_not_empty s h]

theorem exec_call_of_full (nnn : Imm12) (h : s.cpu.sp = 0xF#4) : exec (.call nnn) s = raise (.stackOverflow 15) s := by
  rw [exec, execCall, push_of_full s _ h]

/-- After its push, `CALL` is a checked jump. -/
theorem exec_call_of_push (nnn : Imm12) (h : push s.cpu.pc s = .ok t) :
    exec (.call nnn) s = withinMemory nnn.toNat s (.next (t.setPc (zext16 nnn))) := by
  rw [exec, execCall, h]

end Sys2Proof.Machine

/-! ## The statements of 41_control_flow.md settled -/

namespace Sys2Proof.Proofs

open Sys2Proof.Machine Sys2Proof.Safety

/-- Settles O19: the word of `SYS nnn` has the op field 0, so it is `nnn` itself. -/
theorem sysAndUnsupportedRaise : Obligations.SysAndUnsupportedRaise :=
  ⟨fun nnn s => by rw [← formatA_zero]; rfl, fun _ _ => rfl⟩

/-- Settles O20: with an entry to pop taking one from `sp` does not wrap, and the entry stays where it is. -/
theorem retPopsIntoPc : Obligations.RetPopsIntoPc := by
  refine fun s => ⟨exec_ret_of_empty, fun hsp hout => ?_, fun hsp hin => ?_⟩
  · exact (exec_ret_of_not_empty hsp).trans (withinMemory_of_le s _ _ hout)
  · exact ⟨_, (exec_ret_of_not_empty hsp).trans (withinMemory_of_lt s _ _ hin), toNat_sub_one_of_not_empty hsp, rfl,
      ((Edits.refl.setSp _ rfl).setPc _ rfl).sameBut⟩

/-- Settles O21: `JP` is a checked jump. -/
theorem jpLoadsPc : Obligations.JpLoadsPc := fun nnn s => withinMemory_setPc (toNat_zext16 nnn) s

/-- Settles O22: the effect is the one of `Push`, with `pc` loaded after it. -/
theorem callPushesAndJumps : Obligations.CallPushesAndJumps := by
  refine fun nnn s => ⟨exec_call_of_full nnn, fun hsp hout => ?_, fun hsp hin => ?_⟩
  all_goals obtain ⟨t, hpush, hnew, htop, hframe⟩ := push_next s.cpu.pc hsp
  · exact (exec_call_of_push nnn hpush).trans (withinMemory_of_le s _ _ hout)
  · exact ⟨_, (exec_call_of_push nnn hpush).trans (withinMemory_of_lt s _ _ hin), hnew ▸ toNat_add_one_of_not_full hsp, htop,
      toNat_zext16 nnn, sameBut_setPc hframe _⟩

/-- Settles O23: each of the four is the one skip, under its own condition. -/
theorem skipsAddTwoWhenConditionHolds : Obligations.SkipsAddTwoWhenConditionHolds := by
  refine fun x y kk s => ⟨⟨_, rfl, skipIf_sameBut _ s, ?_⟩, ⟨_, rfl, skipIf_sameBut _ s, ?_⟩,
    ⟨_, rfl, skipIf_sameBut _ s, ?_⟩, ⟨_, rfl, skipIf_sameBut _ s, ?_⟩⟩
  all_goals simp only [toNat_skipIf_pc, beq_iff_eq, bne_iff_ne, ne_eq, ite_not]

/-- Settles O24: `JP V0` is a checked jump to the exact sum. -/
theorem jpV0AddsOffset : Obligations.JpV0AddsOffset := fun nnn s => withinMemory_setPc (toNat_indexedTarget nnn s) s

end Sys2Proof.Proofs
end

section
/-! The register writes of 42_alu.md: one register written, or a result and then the flag (R63 (c)), and what the flags of
R63 (b) are as numbers. -/

namespace Sys2Proof.Machine

open Sys2Proof.Safety

variable {i : Instr} {x : Nibble} {r : Byte} {c : Bool} {s : State}

/-! ## The flags as numbers (R63 (b)) -/

theorem toNat_flagByte (c : Bool) : (flagByte c).toNat = c.toNat := by
  cases c <;> rfl

theorem toNat_carryFlag (a b : Byte) : (carryFlag a b).toNat = if a.toNat + b.toNat > 255 then 1 else 0 :=
  Bool.cond_decide _ _ _

theorem toNat_noBorrowFlag (a b : Byte) : (noBorrowFlag a b).toNat = if a.toNat ≥ b.toNat then 1 else 0 :=
  Bool.cond_decide _ _ _

theorem toNat_shiftedOutRight (a : Byte) : (shiftedOutRight a).toNat = a.toNat % 2 := by
  rw [shiftedOutRight, BitVec.getLsbD, Nat.toNat_testBit, Nat.pow_zero, Nat.div_one]

/-- Bit 7 is the top bit, so nothing of the quotient is cut off. -/
theorem toNat_shiftedOutLeft (a : Byte) : (shiftedOutLeft a).toNat = a.toNat / 128 := by
  have ha : a.toNat < 256 := a.isLt
  rw [shiftedOutLeft, BitVec.getLsbD, Nat.toNat_testBit]
  omega

/-! ## The results as numbers (R71, R73, R72, R74) -/

theorem toNat_sub_byte (a b : Byte) : (a - b).toNat = (a.toNat + 256 - b.toNat) % 256 := by
  have hb : b.toNat < 256 := b.isLt
  rw [BitVec.toNat_sub]
  omega

theorem toNat_ushiftRight_one (a : Byte) : (a >>> 1).toNat = a.toNat / 2 := by
  rw [BitVec.toNat_ushiftRight, Nat.shiftRight_one]

theorem toNat_shiftLeft_one (a : Byte) : (a <<< 1).toNat = a.toNat * 2 % 256 := by
  rw [BitVec.toNat_shiftLeft, Nat.shiftLeft_eq, Nat.pow_one]

/-! ## What the writes leave unchanged, and what a flag-setting instruction does (R63 (c)) -/

theorem setV_sameBut (x : Nibble) (b : Byte) (s : State) : SameBut { regs := [x] } s (s.setV x b) :=
  (Edits.refl.setV x b (List.mem_singleton_self x)).sameBut

/-- The flag is written last, so it stands in `VF` for every `x`, and the result in `V[x]` for every other `x`. -/
theorem exec_setResultFlag {flag result : Nat} (h : exec i s = .next (s.setResultFlag x r c))
    (hflag : c.toNat = flag) (hresult : r.toNat = result) :
    ∃ t, exec i s = .next t ∧ (t.getV 0xF#4).toNat = flag ∧ (x ≠ 0xF#4 → (t.getV x).toNat = result) ∧
      SameBut { regs := [x, 0xF#4] } s t := by
  refine ⟨_, h, ?_, fun hx => ?_, (Edits.refl.setResultFlag x r c rfl).sameBut⟩
  · rw [State.getV_setResultFlag, if_pos rfl, toNat_flagByte, hflag]
  · rw [State.getV_setResultFlag, if_neg hx, if_pos rfl, hresult]

end Sys2Proof.Machine

/-! ## The statements of 42_alu.md settled -/

namespace Sys2Proof.Proofs

open Sys2Proof.Machine Sys2Proof.Safety

/-- Settles O25: each of the five is one register write, of the value or of the bitwise result. -/
theorem loadsAndLogicWriteOneRegister : Obligations.LoadsAndLogicWriteOneRegister := by
  refine fun x y kk s => ⟨⟨_, rfl, s.getV_setV_same x kk, setV_sameBut x _ s⟩,
    ⟨_, rfl, s.getV_setV_same x _, setV_sameBut x _ s⟩, ⟨_, rfl, setV_sameBut x _ s, fun k => ?_⟩,
    ⟨_, rfl, setV_sameBut x _ s, fun k => ?_⟩, ⟨_, rfl, setV_sameBut x _ s, fun k => ?_⟩⟩
  · rw [State.getV_setV_same, BitVec.getLsbD_or]
  · rw [State.getV_setV_same, BitVec.getLsbD_and]
  · rw [State.getV_setV_same, BitVec.getLsbD_xor]

/-- Settles O26: one register write, of the sum of two bytes, which is modulo 256. -/
theorem addImmWrapsWithoutFlag : Obligations.AddImmWrapsWithoutFlag := fun x kk s =>
  ⟨_, rfl, by rw [State.getV_setV_same, BitVec.toNat_add], setV_sameBut x _ s⟩

/-- Settles O27: the result, then the carry of the exact sum. -/
theorem addSetsCarry : Obligations.AddSetsCarry := fun _ _ _ =>
  exec_setResultFlag rfl (toNat_carryFlag _ _) (BitVec.toNat_add _ _)

/-- Settles O28: the difference, then 1 when there was no borrow. -/
theorem subSetsNoBorrow : Obligations.SubSetsNoBorrow := fun _ _ _ =>
  exec_setResultFlag rfl (toNat_noBorrowFlag _ _) (toNat_sub_byte _ _)

/-- Settles O29: `SUB` with the operands exchanged, the destination still `V[x]`. -/
theorem subnSetsNoBorrow : Obligations.SubnSetsNoBorrow := fun _ _ _ =>
  exec_setResultFlag rfl (toNat_noBorrowFlag _ _) (toNat_sub_byte _ _)

/-- Settles O30: neither shift reads the field `y`. -/
theorem shiftsSetBitShiftedOut : Obligations.ShiftsSetBitShiftedOut := fun _ _ _ =>
  ⟨exec_setResultFlag rfl (toNat_shiftedOutRight _) (toNat_ushiftRight_one _),
    exec_setResultFlag rfl (toNat_shiftedOutLeft _) (toNat_shiftLeft_one _)⟩

/-- Settles O31: the byte masked is the one the port gives at the count before the draw. -/
theorem rndMasksFreshDraw : Obligations.RndMasksFreshDraw := fun x kk s =>
  ⟨_, rfl, fun k => by rw [State.countRnd_getV, State.getV_setV_same, BitVec.getLsbD_and], rfl,
    ((Edits.refl.setV x _ (List.mem_singleton_self x)).countRnd rfl).sameBut⟩

end Sys2Proof.Proofs
end

section
/-! The index register and the memory instructions of 43_index_memory.md: a check of the highest address before any write
(R76), bytes stored from `I` upward and read back (R80, R81), registers loaded from `I` upward (R82), glyph addresses (R79). -/

namespace Sys2Proof.Machine

open Sys2Proof.Safety

variable {s : State}

/-! ## The checked access (R76) -/

/-- An access whose highest address is `a` either raises the error of the check, with nothing written, or has its whole
effect `t`, of which `P` holds. -/
theorem withinMemory_next_spec {a : Nat} {t : State} {P : State → Prop} (s : State) (h : a < s.params.memLen → P t) :
    (s.params.memLen ≤ a →
      withinMemory a s (.next t) = .next (s.setAnswer (.error (.addressOutOfBounds a s.params.memLen)))) ∧
    (a < s.params.memLen → ∃ u, withinMemory a s (.next t) = .next u ∧ P u) :=
  ⟨withinMemory_of_le s a _, fun hin => ⟨t, withinMemory_of_lt s a _ hin, h hin⟩⟩

/-! ## Bytes stored (R80, R81) -/

theorem readByte_writeBytes_add (s : State) (a : Nat) {bs : List Byte} {k : Nat} {b : Byte} (h : bs[k]? = some b) :
    (s.writeBytes a bs).readByte (a + k) = b := by
  obtain ⟨hk, rfl⟩ := List.getElem?_eq_some_iff.mp h
  simp [State.readByte_writeBytes, hk]

theorem writeBytes_sameBut {a n : Nat} {bs : List Byte} (hlen : bs.length = n) (hin : a + n ≤ s.params.memLen) :
    SameBut { memAt := a, memCount := n } s (s.writeBytes a bs) :=
  (Edits.refl.writeBytes (m := { memAt := a, memCount := n }) bs hlen (hlen ▸ hin)).sameBut

/-- A decimal digit of a byte `b`, at place `k` of the three, is stored whole: it is at most `b`, so a byte holds it. -/
theorem toNat_readByte_writeBytes_decimalDigits (s : State) (a : Nat) {b : Byte} {k n : Nat}
    (h : (decimalDigits b)[k]? = some (BitVec.ofNat 8 n)) (hn : n ≤ b.toNat) :
    ((s.writeBytes a (decimalDigits b)).readByte (a + k)).toNat = n := by
  rw [readByte_writeBytes_add s a h, BitVec.toNat_ofNat, Nat.mod_eq_of_lt (hn.trans_lt b.isLt)]

/-! ## Registers loaded (R82) -/

theorem getElem_readBytes (s : State) (a : Nat) {n k : Nat} (h : k < (s.readBytes a n).length) :
    (s.readBytes a n)[k] = s.readByte (a + k) := by
  have hk : k < n := by simpa [State.readBytes] using h
  rw [List.getElem_eq_iff, State.readBytes, Memory.getElem?_readBytes, if_pos hk, State.readByte]

/-- A load of `V[0]` to `V[x]` from `a` upward, register by register. -/
theorem getV_setRegsFrom_readBytes (s : State) (a : Nat) (x j : Nibble) :
    (s.setRegsFrom 0 (s.readBytes a (x.toNat + 1))).getV j =
      if j.toNat ≤ x.toNat then s.readByte (a + j.toNat) else s.getV j := by
  have hx : x.toNat < 16 := x.isLt
  have hlen : (s.readBytes a (x.toNat + 1)).length = x.toNat + 1 := Memory.length_readBytes _ _ _
  rw [State.getV_setRegsFrom s 0 _ j (by omega)]
  by_cases hj : j.toNat ≤ x.toNat
  · rw [dif_pos (by omega), if_pos hj, getElem_readBytes, Nat.sub_zero]
  · rw [dif_neg (by omega), if_neg hj]

theorem setRegsFrom_sameBut {x : Nibble} {bs : List Byte} (hlen : bs.length = x.toNat + 1) :
    SameBut { regs := destRegs (.ldVxMem x) } s (s.setRegsFrom 0 bs) :=
  (Edits.refl.setRegsFrom 0 bs fun _ _ hk => List.mem_map_of_mem (List.mem_range.mpr (by omega))).sameBut

/-! ## The index register (R77 to R79) -/

theorem setI_sameBut (w : Word) (s : State) : SameBut { i := true } s (s.setI w) := (Edits.refl.setI w rfl).sameBut

theorem exec_ldF_of_lt {x : Nibble} (h : 15 < (s.getV x).toNat) :
    exec (.ldF x) s = raise (.unsupportedOperation (encode (.ldF x))) s := by
  rw [exec, execLdF, nibbleOperand_of_lt _ h]

theorem exec_ldF_of_le {x : Nibble} (h : (s.getV x).toNat ≤ 15) :
    exec (.ldF x) s = .next (s.setI (BitVec.ofNat 16 (glyphAddr s.params ((s.getV x).setWidth 4)))) := by
  rw [exec, execLdF, nibbleOperand_of_le _ h]

/-- The last glyph ends at `FONT_BASE + 79`, inside memory, so no glyph's address is cut off by the width of `I` (R3). -/
theorem toNat_glyphAddr {p : Params} (hp : p.Wf) (d : Nibble) :
    (BitVec.ofNat 16 (glyphAddr p d)).toNat = p.fontBase + 5 * d.toNat := by
  obtain ⟨-, hlen, hfont, -⟩ := hp
  have hd : d.toNat < 16 := d.isLt
  rw [BitVec.toNat_ofNat, glyphAddr, Nat.mod_eq_of_lt (by omega)]

end Sys2Proof.Machine

/-! ## The statements of 43_index_memory.md settled -/

namespace Sys2Proof.Proofs

open Sys2Proof.Machine Sys2Proof.Safety

/-- Settles O34: the three digits in their places, each at most `V[x]`. -/
theorem decimalDigitsStored : Obligations.DecimalDigitsStored := fun _ s =>
  withinMemory_next_spec s fun hin =>
    ⟨toNat_readByte_writeBytes_decimalDigits s _ (k := 0) rfl (Nat.div_le_self _ _),
      toNat_readByte_writeBytes_decimalDigits s _ (k := 1) rfl ((Nat.mod_le _ _).trans (Nat.div_le_self _ _)),
      toNat_readByte_writeBytes_decimalDigits s _ (k := 2) rfl (Nat.mod_le _ _),
      writeBytes_sameBut rfl hin⟩

/-- Settles O35: byte `j` of the store is `V[j]`, and the bytes stored are `x + 1`. -/
theorem registersStoredFromI : Obligations.RegistersStoredFromI := fun x s =>
  withinMemory_next_spec s fun hin =>
    ⟨fun j hj => (readByte_writeBytes_regsUpTo s _ hj).trans (by rw [BitVec.ofNat_toNat, BitVec.setWidth_eq]),
      writeBytes_sameBut (s.length_regsUpTo x) hin⟩

/-- Settles O36: the registers loaded, and those above them, are the two cases of one lemma. -/
theorem registersLoadedFromI : Obligations.RegistersLoadedFromI := fun x s =>
  withinMemory_next_spec s fun _ =>
    ⟨fun j hj => (getV_setRegsFrom_readBytes s _ x j).trans (if_pos hj),
      setRegsFrom_sameBut (Memory.length_readBytes _ _ _),
      fun j hj => (getV_setRegsFrom_readBytes s _ x j).trans (if_neg (Nat.not_le.mpr hj))⟩

/-- Settles O37: the load reads the bytes that the store wrote, from the same `I`. -/
theorem storeThenLoadGivesRegistersBack : Obligations.StoreThenLoadGivesRegistersBack := by
  intro x s t u v hin hstore hmem hi hparams hload j hj
  obtain ⟨t', hstore', hbytes, -⟩ := (registersStoredFromI x s).2 hin
  obtain ⟨v', hload', hregs, -⟩ := (registersLoadedFromI x u).2 (by rw [hi, hparams]; exact hin)
  cases hstore.symm.trans hstore'
  cases hload.symm.trans hload'
  calc v.getV j = u.readByte (effAddr u j.toNat) := hregs j hj
    _ = t.readByte (effAddr s j.toNat) := by rw [State.readByte, State.readByte, effAddr, effAddr, hmem, hi]
    _ = s.getV j := hbytes j hj

/-- Settles O32: each is one write of `I`, of `nnn` or of the sum of two words, which is modulo 65536. -/
theorem indexLoadAndAdd : Obligations.IndexLoadAndAdd := fun nnn x s =>
  ⟨⟨_, rfl, toNat_zext16 nnn, setI_sameBut _ s⟩,
    ⟨_, rfl, by rw [State.setI_cpu_i, BitVec.toNat_add, BitVec.toNat_setWidth_of_le (by decide)], setI_sameBut _ s⟩⟩

/-- Settles O33: a value up to 15 is the digit whose glyph `I` then points at. -/
theorem glyphAddressOrUnsupported : Obligations.GlyphAddressOrUnsupported := by
  refine fun x s hp => ⟨exec_ldF_of_lt, fun h => ⟨_, exec_ldF_of_le h, ?_, setI_sameBut _ s⟩⟩
  rw [State.setI_cpu_i, toNat_glyphAddr hp, BitVec.toNat_setWidth, Nat.mod_eq_of_lt (by omega)]

end Sys2Proof.Proofs
end

section
/-! The display instructions of 44_display.md. A draw toggles each place of the sprite once, so it is the exclusive or with the
sprite's bits, and a collision is a bit on a pixel that was on before the draw (60_exceptions.md R107). -/

namespace Sys2Proof.Machine

open Sys2Proof.Safety

variable {mark mark₁ mark₂ : Nat → Nat → Bool} {acc acc₁ acc₂ : Pixels × Bool} {x y n : Nibble} {s : State}

/-! ## Toggling the marked places once each -/

/-- From `acc` to `acc'` the pixels at the places that `mark` names were toggled, once each, and those that were on before
were noted as collisions. -/
structure Toggles (mark : Nat → Nat → Bool) (acc acc' : Pixels × Bool) : Prop where
  pixel : ∀ col row, pixelAt acc'.1 col row = (pixelAt acc.1 col row ^^ mark col row)
  collision : acc'.2 = true ↔ acc.2 = true ∨ ∃ col row, mark col row = true ∧ pixelAt acc.1 col row = true

theorem Toggles.congr (h : Toggles mark₁ acc acc₁) (hmark : ∀ col row, mark₁ col row = mark col row) :
    Toggles mark acc acc₁ := by
  obtain rfl : mark₁ = mark := funext₂ hmark
  exact h

theorem toggles_none (acc : Pixels × Bool) : Toggles (fun _ _ => false) acc acc where
  pixel _ _ := (Bool.xor_false _).symm
  collision := by simp

/-- The second draw sees the pixels of its own places as they were before the first, which has none of them. -/
theorem Toggles.trans (h₁ : Toggles mark₁ acc acc₁) (h₂ : Toggles mark₂ acc₁ acc₂)
    (hdisj : ∀ col row, mark₂ col row = true → mark₁ col row = false) :
    Toggles (fun col row => mark₁ col row || mark₂ col row) acc acc₂ where
  pixel col row := by
    rw [h₂.pixel, h₁.pixel, Bool.xor_assoc]
    cases hm : mark₂ col row
    · rw [Bool.xor_false, Bool.or_false]
    · rw [hdisj col row hm, Bool.false_xor, Bool.false_or]
  collision := by
    have hbefore : ∀ col row, (mark₂ col row = true ∧ pixelAt acc₁.1 col row = true) ↔
        (mark₂ col row = true ∧ pixelAt acc.1 col row = true) := fun col row =>
      and_congr_right fun hm => by rw [h₁.pixel, hdisj col row hm, Bool.xor_false]
    simp only [h₂.collision, h₁.collision, hbefore, Bool.or_eq_true, or_and_right, exists_or, or_assoc]

/-- A pixel went from on to off when a marked place was on. -/
theorem Toggles.collision_iff_on_to_off {p : Pixels} (h : Toggles mark (p, false) acc) :
    acc.2 = true ↔ ∃ col row, pixelAt p col row = true ∧ pixelAt acc.1 col row = false := by
  rw [h.collision, or_iff_right Bool.false_ne_true]
  refine exists₂_congr fun col row => ?_
  rw [h.pixel, and_comm]
  exact and_congr_right fun hp => by rw [hp, Bool.true_xor, Bool.not_eq_false']

/-! ## A sprite row, and the rows below it (R107) -/

/-- Whether one of the pixels `bs` of a sprite row, drawn in screen row `y` from column `x0` on, is a 1 bit at `(col, row)`. -/
def rowBit (bits : Byte) (x0 y : Nat) (bs : List Nat) (col row : Nat) : Bool :=
  decide (row = y ∧ row < 32 ∧ col < 64 ∧ x0 ≤ col ∧ col - x0 ∈ bs) && bits.getLsbD (7 - (col - x0))

theorem rowBit_eq_true {bits : Byte} {x0 y : Nat} {bs : List Nat} {col row : Nat} :
    rowBit bits x0 y bs col row = true ↔
      (row = y ∧ row < 32 ∧ col < 64 ∧ x0 ≤ col ∧ col - x0 ∈ bs) ∧ bits.getLsbD (7 - (col - x0)) = true := by
  rw [rowBit, Bool.and_eq_true, decide_eq_true_iff]

theorem rowBit_cons (bits : Byte) (x0 y b : Nat) (bs : List Nat) (col row : Nat) :
    rowBit bits x0 y (b :: bs) col row = (rowBit bits x0 y [b] col row || rowBit bits x0 y bs col row) := by
  rw [Bool.eq_iff_iff, Bool.or_eq_true, rowBit_eq_true, rowBit_eq_true, rowBit_eq_true, List.mem_cons, List.mem_singleton]
  tauto

theorem rowBit_singleton {bits : Byte} {x0 y b : Nat} {v : Bool} (hv : bits.getLsbD (7 - b) = v) (col row : Nat) :
    rowBit bits x0 y [b] col row = (decide (col = x0 + b ∧ row = y ∧ y < 32 ∧ x0 + b < 64) && v) := by
  rw [Bool.eq_iff_iff, rowBit_eq_true, Bool.and_eq_true, decide_eq_true_iff, List.mem_singleton]
  constructor
  · rintro ⟨⟨rfl, hrow, hcol, hle, rfl⟩, hbit⟩
    exact ⟨by omega, hv ▸ hbit⟩
  · rintro ⟨⟨rfl, rfl, hrow, hcol⟩, rfl⟩
    rw [Nat.add_sub_cancel_left]
    exact ⟨by omega, hv⟩

theorem toggles_drawPixel (c r : Nat) (acc : Pixels × Bool) :
    Toggles (fun col row => decide (col = c ∧ row = r ∧ r < 32 ∧ c < 64)) acc (drawPixel c r acc) where
  pixel := pixelAt_drawPixel c r acc
  collision := by
    rw [drawPixel_collision, Bool.or_eq_true]
    refine or_congr_right ⟨fun hon => ⟨c, r, ?_, hon⟩, ?_⟩
    · by_contra hoff
      rw [pixelAt_off_screen _ _ _ fun hin => hoff (decide_eq_true ⟨rfl, rfl, hin⟩)] at hon
      exact Bool.false_ne_true hon
    · rintro ⟨col, row, hat, hon⟩
      obtain ⟨rfl, rfl, -⟩ := of_decide_eq_true hat
      exact hon

theorem toggles_drawBit (bits : Byte) (x0 y b : Nat) (acc : Pixels × Bool) :
    Toggles (rowBit bits x0 y [b]) acc (if bits.getLsbD (7 - b) then drawPixel (x0 + b) y acc else acc) := by
  cases hv : bits.getLsbD (7 - b)
  · exact (toggles_none acc).congr fun col row => by rw [rowBit_singleton hv, Bool.and_false]
  · exact (toggles_drawPixel (x0 + b) y acc).congr fun col row => by rw [rowBit_singleton hv, Bool.and_true]

theorem toggles_drawRowFrom (bits : Byte) (x0 y : Nat) {bs : List Nat} (hbs : bs.Nodup) (acc : Pixels × Bool) :
    Toggles (rowBit bits x0 y bs) acc (drawRowFrom bits x0 y bs acc) := by
  induction bs generalizing acc with
  | nil => exact (toggles_none acc).congr fun col row => by simp [rowBit]
  | cons b rest ih =>
    obtain ⟨hb, hrest⟩ := List.nodup_cons.mp hbs
    refine ((toggles_drawBit bits x0 y b acc).trans (ih hrest _) fun col row hlater => ?_).congr fun col row =>
      (rowBit_cons bits x0 y b rest col row).symm
    obtain ⟨⟨-, -, -, -, hmem⟩, -⟩ := rowBit_eq_true.mp hlater
    rw [Bool.eq_false_iff, ne_eq, rowBit_eq_true, List.mem_singleton]
    rintro ⟨⟨-, -, -, -, rfl⟩, -⟩
    exact hb hmem

/-- Whether the sprite with these rows, its top left pixel at `(x0, y0)`, has a 1 bit at `(col, row)`; there is none below its
last row. -/
def rowsBit (x0 y0 : Nat) (rows : List Byte) (col row : Nat) : Bool :=
  decide (x0 ≤ col ∧ col < x0 + 8 ∧ col < 64 ∧ y0 ≤ row ∧ row < 32) &&
    (rows[row - y0]?.getD 0x00#8).getLsbD (7 - (col - x0))

theorem rowsBit_eq_true {x0 y0 : Nat} {rows : List Byte} {col row : Nat} :
    rowsBit x0 y0 rows col row = true ↔ (x0 ≤ col ∧ col < x0 + 8 ∧ col < 64 ∧ y0 ≤ row ∧ row < 32) ∧
      (rows[row - y0]?.getD 0x00#8).getLsbD (7 - (col - x0)) = true := by
  rw [rowsBit, Bool.and_eq_true, decide_eq_true_iff]

theorem rowsBit_nil (x0 y0 col row : Nat) : rowsBit x0 y0 [] col row = false := by
  simp [rowsBit]

theorem rowsBit_cons (x0 y0 : Nat) (bits : Byte) (rows : List Byte) (col row : Nat) :
    rowsBit x0 y0 (bits :: rows) col row =
      (rowBit bits x0 y0 (List.range 8) col row || rowsBit x0 (y0 + 1) rows col row) := by
  rw [Bool.eq_iff_iff, Bool.or_eq_true, rowBit_eq_true, rowsBit_eq_true, rowsBit_eq_true, List.mem_range]
  obtain hlt | hle := Nat.lt_or_ge y0 row
  · rw [show row - y0 = row - (y0 + 1) + 1 by omega, List.getElem?_cons_succ, or_iff_right fun h => by omega]
    exact and_congr_left fun _ => by omega
  · rw [Nat.sub_eq_zero_of_le hle, List.getElem?_cons_zero, Option.getD_some, or_iff_left fun h => by omega]
    exact and_congr_left fun _ => by omega

theorem toggles_drawRows (x0 y0 : Nat) (rows : List Byte) (acc : Pixels × Bool) :
    Toggles (rowsBit x0 y0 rows) acc (drawRows x0 y0 rows acc) := by
  induction rows generalizing y0 acc with
  | nil => exact (toggles_none acc).congr fun col row => (rowsBit_nil x0 y0 col row).symm
  | cons bits rest ih =>
    refine ((toggles_drawRowFrom bits x0 y0 List.nodup_range acc).trans (ih (y0 + 1) _) fun col row hlater => ?_).congr
      fun col row => (rowsBit_cons x0 y0 bits rest col row).symm
    obtain ⟨⟨-, -, -, hbelow, -⟩, -⟩ := rowsBit_eq_true.mp hlater
    rw [Bool.eq_false_iff, ne_eq, rowBit_eq_true]
    rintro ⟨⟨rfl, -⟩, -⟩
    exact Nat.not_succ_le_self _ hbelow

/-! ## The sprite in memory (R85) -/

theorem rowsBit_readBytes (s : State) (vx vy : Byte) (n col row : Nat) :
    rowsBit (vx.toNat % 64) (vy.toNat % 32) (s.readBytes (effAddr s 0) n) col row = spriteAt s vx vy n col row := by
  rw [rowsBit, spriteAt, State.readBytes, Memory.getElem?_readBytes]
  by_cases hrow : row - vy.toNat % 32 < n
  · rw [if_pos hrow, Option.getD_some]
    refine congrArg₂ and (decide_eq_decide.mpr ?_) rfl
    omega
  · have hbelow : ¬ (vx.toNat % 64 ≤ col ∧ col < vx.toNat % 64 + 8 ∧ col < 64 ∧ vy.toNat % 32 ≤ row ∧
        row < vy.toNat % 32 + n ∧ row < 32) := by omega
    rw [if_neg hrow, Option.getD_none, BitVec.getLsbD_zero, Bool.and_false, decide_eq_false hbelow, Bool.false_and]

theorem toggles_drawSprite (s : State) (p : Pixels) (vx vy : Byte) (n : Nat) :
    Toggles (spriteAt s vx vy n) (p, false) (drawSprite p vx vy (s.readBytes (effAddr s 0) n)) :=
  (toggles_drawRows _ _ _ _).congr (rowsBit_readBytes s vx vy n)

/-- The sprite is read from memory at `I`, so a state with the same of both has the same sprite. -/
theorem spriteAt_congr {s t : State} (hi : t.cpu.i = s.cpu.i) (hmem : ∀ a, t.readByte a = s.readByte a) (vx vy : Byte)
    (n : Nat) : spriteAt t vx vy n = spriteAt s vx vy n :=
  funext₂ fun col row => by rw [spriteAt, spriteAt, hi, hmem]

theorem exists_mem_readBytes {s : State} {a n : Nat} {P : Byte → Prop} :
    (∃ b ∈ s.readBytes a n, P b) ↔ ∃ k < n, P (s.readByte (a + k)) := by
  have hlen : (s.readBytes a n).length = n := Memory.length_readBytes _ _ _
  simp only [List.exists_mem_iff_getElem, getElem_readBytes, hlen, exists_prop]

/-! ## The request to the screen (R85) -/

theorem toNat_getV_setFlag (s : State) (c : Bool) : ((s.setFlag c).getV 0xF#4).toNat = c.toNat := by
  rw [State.getV_setFlag, if_pos rfl, toNat_flagByte]

theorem toNat_getV_setFlag_eq_one (s : State) (c : Bool) : ((s.setFlag c).getV 0xF#4).toNat = 1 ↔ c = true := by
  rw [toNat_getV_setFlag, Bool.toNat_eq_one]

theorem toNat_getV_setFlag_le_one (s : State) (c : Bool) : ((s.setFlag c).getV 0xF#4).toNat ≤ 1 :=
  (toNat_getV_setFlag s c).trans_le c.toNat_le

theorem setScreen_setFlag_sameBut (sc : Screen) (c : Bool) (s : State) :
    SameBut { regs := [0xF#4], screen := true } s ((s.setScreen sc).setFlag c) :=
  ((Edits.refl.setScreen sc rfl).setV _ _ (List.mem_singleton_self _)).sameBut

theorem exec_drw_of_outside (x y : Nibble) {n : Nibble} (hn : n ≠ 0x0#4)
    (hout : s.params.memLen ≤ s.cpu.i.toNat + n.toNat - 1) :
    exec (.drw x y n) s = raise (.addressOutOfBounds (s.cpu.i.toNat + n.toNat - 1) s.params.memLen) s := by
  have hpos : 0 < n.toNat := Nat.pos_of_ne_zero fun e => hn (BitVec.eq_of_toNat_eq e)
  have haddr : effAddr s (n.toNat - 1) = s.cpu.i.toNat + n.toNat - 1 := (Nat.add_sub_assoc hpos _).symm
  rw [exec, execDrw, if_neg hn, haddr, withinMemory_of_le s _ _ hout]

theorem exec_drw_of_refused (h : n = 0x0#4 ∨ s.cpu.i.toNat + n.toNat - 1 < s.params.memLen)
    (hrefused : drawAnswer s.screen (s.getV x) (s.getV y) (s.readBytes (effAddr s 0) n.toNat) = none) :
    exec (.drw x y n) s = raise (.unsupportedOperation (encode (.drw x y n)))
      (s.setScreen (screenAfterDraw s.screen (s.getV x) (s.getV y) (s.readBytes (effAddr s 0) n.toNat))) := by
  rw [exec, execDrw_of_inside s x y n h, drawRequest, hrefused]

theorem exec_drw_of_answer {c : Bool} (h : n = 0x0#4 ∨ s.cpu.i.toNat + n.toNat - 1 < s.params.memLen)
    (hanswer : drawAnswer s.screen (s.getV x) (s.getV y) (s.readBytes (effAddr s 0) n.toNat) = some c) :
    exec (.drw x y n) s = .next
      ((s.setScreen (screenAfterDraw s.screen (s.getV x) (s.getV y) (s.readBytes (effAddr s 0) n.toNat))).setFlag c) := by
  rw [exec, execDrw_of_inside s x y n h, drawRequest, hanswer]

end Sys2Proof.Machine

/-! ## The statements of 44_display.md settled -/

namespace Sys2Proof.Proofs

open Sys2Proof.Machine Sys2Proof.Safety

/-- Settles O39: the screen of unknown behaviour has no pixels here, so writing it back changes nothing. -/
theorem clsClearsScreen : Obligations.ClsClearsScreen := by
  refine fun s => ⟨fun p hp => ?_, fun n hn => ?_⟩
  · exact ⟨_, pixelsOff, rfl, by rw [hp]; rfl, pixelAt_pixelsOff, (Edits.refl.setScreen _ rfl).sameBut⟩
  · rw [exec, execCls, hn, screenClear, ← hn]; rfl

/-- Settles O40: the check, then the two answers of a screen that is not the reference one. -/
theorem drwChecksThenAsksScreen : Obligations.DrwChecksThenAsksScreen := by
  refine fun x y n s => ⟨exec_drw_of_outside x y, fun hin k hk => ?_⟩
  cases hc : Config.screenAnswer k with
  | none =>
    rw [exec_drw_of_refused hin (by rw [hk, drawAnswer, hc]; rfl), hk]
    rfl
  | some c =>
    refine ⟨_, exec_drw_of_answer hin (by rw [hk, drawAnswer, hc]; rfl), by rw [hk]; rfl, ?_, toNat_getV_setFlag_le_one _ _,
      setScreen_setFlag_sameBut _ _ s⟩
    rw [toNat_getV_setFlag_eq_one, Bool.and_eq_true, List.any_eq_true]
    simp only [decide_eq_true_iff, exists_mem_readBytes]
    rfl

/-- Settles O41: the draw toggles each place of the sprite once. -/
theorem drwXorsSpriteOnReferenceScreen : Obligations.DrwXorsSpriteOnReferenceScreen := by
  intro x y n s p hp hin
  have hdraw := toggles_drawSprite s p (s.getV x) (s.getV y) n.toNat
  exact ⟨_, _, exec_drw_of_answer hin (by rw [hp, drawAnswer_reference]), by rw [hp]; rfl, hdraw.pixel,
    (toNat_getV_setFlag_eq_one _ _).trans hdraw.collision_iff_on_to_off, toNat_getV_setFlag_le_one _ _,
    setScreen_setFlag_sameBut _ _ s⟩

/-- Settles O42: the second draw is of the same sprite at the same place, and its exclusive or undoes the first one's. -/
theorem drawingTwiceRestoresScreen : Obligations.DrawingTwiceRestoresScreen := by
  intro x y n s t u p hp hx hy hin hfirst hsecond
  obtain ⟨t', q, hfirst', hq, hpixel, -, -, hframe⟩ := drwXorsSpriteOnReferenceScreen x y n s p hp hin
  cases hfirst.symm.trans hfirst'
  have hi := hframe.i rfl
  obtain ⟨u', q', hsecond', hq', hpixel', hflag', -, -⟩ :=
    drwXorsSpriteOnReferenceScreen x y n t q hq (by rw [hi, hframe.params]; exact hin)
  cases hsecond.symm.trans hsecond'
  have hmem : ∀ a, t.readByte a = s.readByte a := fun a => hframe.mem a fun h => Nat.not_lt_zero a h.2
  rw [hframe.regs x (List.mem_singleton.not.mpr hx), hframe.regs y (List.mem_singleton.not.mpr hy),
    spriteAt_congr hi hmem] at hpixel'
  obtain rfl : q' = p := pixels_ext q' p fun col row => by
    rw [hpixel', hpixel, Bool.xor_assoc, Bool.xor_self, Bool.xor_false]
  refine ⟨hq'.trans hp.symm, hflag'.trans (exists₂_congr fun col row => ?_)⟩
  rw [hpixel]
  exact and_congr_left fun hoff => by rw [hoff, Bool.false_xor]

end Sys2Proof.Proofs
end

section
/-! The keypad and timer instructions of 45_keypad_timers.md: a key skip is the skip of 41_control_flow.md under the flag of the
key that `V[x]` names (R86), and `LD Vx, K` takes the key that `leastPressed` finds (R89). -/

namespace Sys2Proof.Machine

variable {x k : Nibble} {s : State}

/-! ## The key that `V[x]` names (R86) -/

theorem nibbleOperand_of_toNat_eq {b : Byte} (h : b.toNat = k.toNat) : nibbleOperand b = some k := by
  have hk : k.toNat < 16 := k.isLt
  have hb : b.setWidth 4 = k := by
    apply BitVec.eq_of_toNat_eq
    rw [BitVec.toNat_setWidth, h, Nat.mod_eq_of_lt hk]
  rw [nibbleOperand_of_le b (by omega), hb]

theorem exec_skp_of_lt (h : 15 < (s.getV x).toNat) :
    exec (.skp x) s = raise (.unsupportedOperation (encode (.skp x))) s := by
  rw [exec, execSkp, nibbleOperand_of_lt _ h]

theorem exec_skp_of_key (h : (s.getV x).toNat = k.toNat) : exec (.skp x) s = .next (skipIf (s.key k) s) := by
  rw [exec, execSkp, nibbleOperand_of_toNat_eq h]

theorem exec_sknp_of_lt (h : 15 < (s.getV x).toNat) :
    exec (.sknp x) s = raise (.unsupportedOperation (encode (.sknp x))) s := by
  rw [exec, execSknp, nibbleOperand_of_lt _ h]

theorem exec_sknp_of_key (h : (s.getV x).toNat = k.toNat) : exec (.sknp x) s = .next (skipIf (!s.key k) s) := by
  rw [exec, execSknp, nibbleOperand_of_toNat_eq h]

/-! ## The wait for a key (R89) -/

/-- The search runs over numbers below 16, each of them the number of one key. -/
theorem leastPressed_of_least (hk : s.key k = true) (hleast : ∀ j : Nibble, j.toNat < k.toNat → s.key j = false) :
    leastPressed s = some k.toNat := by
  refine (leastPressed_eq_some s _).mpr ⟨k.isLt, by rwa [BitVec.ofNat_toNat, BitVec.setWidth_eq], fun j hj => hleast _ ?_⟩
  rwa [BitVec.toNat_ofNat, Nat.mod_eq_of_lt (hj.trans k.isLt)]

theorem exec_ldVxK_of_least (x : Nibble) (hk : s.key k = true)
    (hleast : ∀ j : Nibble, j.toNat < k.toNat → s.key j = false) :
    exec (.ldVxK x) s = .next (s.setV x (BitVec.ofNat 8 k.toNat)) := by
  rw [exec, execLdVxK, leastPressed_of_least hk hleast]

theorem exec_ldVxK_of_none (x : Nibble) (h : ∀ k : Nibble, s.key k = false) :
    exec (.ldVxK x) s = .next (s.setPc (s.cpu.pc - 2)) := by
  rw [exec, execLdVxK, (leastPressed_eq_none s).mpr h]

end Sys2Proof.Machine

/-! ## The statements of 45_keypad_timers.md settled -/

namespace Sys2Proof.Proofs

open Sys2Proof.Machine Sys2Proof.Safety

/-- Settles O43: both are the one skip, `SKNP` under the negated key flag. -/
theorem keySkipsTestOneKey : Obligations.KeySkipsTestOneKey := by
  refine fun x s => ⟨fun h => ⟨exec_skp_of_lt h, exec_sknp_of_lt h⟩, fun k h =>
    ⟨⟨_, exec_skp_of_key h, skipIf_sameBut _ s, toNat_skipIf_pc _ s⟩, ⟨_, exec_sknp_of_key h, skipIf_sameBut _ s, ?_⟩⟩⟩
  rw [toNat_skipIf_pc]
  cases s.key k <;> rfl

/-- Settles O44: a key number fits in a byte, and taking 2 from `pc` is adding 65534 modulo 65536. -/
theorem waitForKeyTakesLeastKey : Obligations.WaitForKeyTakesLeastKey := by
  refine fun x s => ⟨fun k hk hleast => ⟨_, exec_ldVxK_of_least x hk hleast, ?_, setV_sameBut x _ s⟩,
    fun hnone => ⟨_, exec_ldVxK_of_none x hnone, ?_, (Edits.refl.setPc _ rfl).sameBut⟩⟩
  · rw [State.getV_setV_same, BitVec.toNat_ofNat, Nat.mod_eq_of_lt (k.isLt.trans (by decide))]
  · rw [State.setPc_cpu_pc, BitVec.toNat_sub, Nat.add_comm]
    rfl

/-- Settles O46: each of the three is one write of the byte it reads. -/
theorem timerMoves : Obligations.TimerMoves := fun x s =>
  ⟨⟨_, rfl, s.getV_setV_same x _, setV_sameBut x _ s⟩,
    ⟨_, rfl, s.setDt_cpu_dt _, (Edits.refl.setDt _ rfl).sameBut⟩,
    ⟨_, rfl, s.setSt_cpu_st _, (Edits.refl.setSt _ rfl).sameBut⟩⟩

end Sys2Proof.Proofs
end

section
/-! The events and errors of 60_exceptions.md: the driving loop's reaction to an error (R102), the fetch that fails again, what
a Tick does to a timer (R105), and the one key flag that KeyWrite writes (R108). -/

namespace Sys2Proof.Machine

open Sys2Proof.Safety

variable {m : MayChange} {s t : State} {e : Error}

/-! ## The driving loop's policy (R102) -/

/-- Under the policy `skip` the driving loop changes nothing, whatever the answer. -/
theorem driverReacts_of_skip (h : t.driver.policy = .skip) : driverReacts t = .next t := by
  cases ha : t.driver.answer with
  | ok => exact driverReacts_of_ok ha
  | error => simp [driverReacts, ha, h]

theorem driverReacts_of_reset (he : t.driver.answer = .error e) (h : t.driver.policy = .reset) :
    driverReacts t = .next (t.setSchedule (.reset :: t.driver.schedule)) := by
  simp [driverReacts, he, h]

theorem driverReacts_of_halt (he : t.driver.answer = .error e) (h : t.driver.policy = .halt) :
    driverReacts t = .fault (.halted e) := by
  simp [driverReacts, he, h]

/-! ## A fetch that fails again (R45, R102) -/

/-- With only `Step` issued and errors skipped, a step that cannot fetch records the error and does nothing else. -/
theorem step_of_fetch_outside (hpc : s.params.memLen ≤ s.cpu.pc.toNat + 1) (hs : StepsOnly s)
    (hskip : s.driver.policy = .skip) :
    step s = .next (s.setAnswer (.error (.addressOutOfBounds (s.cpu.pc.toNat + 1) s.params.memLen))) := by
  rw [step_of_stepsOnly s hs, cycle_of_le s hpc, afterCycle]
  exact driverReacts_of_skip hskip

/-- A state that one step leaves as it is, any number of steps leaves as it is. -/
theorem runFor_of_step_self (h : step t = .next t) (k : Nat) : runFor k t = .next t := by
  induction k with
  | zero => rfl
  | succ k ih => rw [runFor_succ_of_next _ _ k h, ih]

/-! ## The timers (R105) -/

/-- A timer at 0 stays there, which is what subtraction of natural numbers does. -/
theorem toNat_countDown (b : Byte) : (countDown b).toNat = b.toNat - 1 := by
  unfold countDown
  split
  · next h => rw [h]; rfl
  · bv_omega

theorem toNat_tick_dt (s : State) : (tick s).cpu.dt.toNat = s.cpu.dt.toNat - 1 := toNat_countDown s.cpu.dt

theorem toNat_tick_st (s : State) : (tick s).cpu.st.toNat = s.cpu.st.toNat - 1 := toNat_countDown s.cpu.st

theorem Edits.tick (h : Edits m s t) (hdt : m.dt = true) (hst : m.st = true) : Edits m s (tick t) :=
  (h.setDt _ hdt).setSt _ hst

theorem edits_ticks (n : Nat) (s : State) : Edits { dt := true, st := true } s (tick^[n] s) := by
  induction n with
  | zero => exact .refl
  | succ n ih => rw [Function.iterate_succ_apply']; exact ih.tick rfl rfl

/-- A part of the state that every tick takes down by one, as far as 0, `n` ticks take down by `n`, as far as 0. -/
theorem ticks_of_tick {f : State → Nat} (hf : ∀ s, f (tick s) = f s - 1) (n : Nat) (s : State) :
    f (tick^[n] s) = f s - n := by
  induction n with
  | zero => rfl
  | succ n ih => rw [Function.iterate_succ_apply', hf, ih, Nat.sub_sub]

/-! ## The key flags (R108) -/

theorem keyWrite_sameBut (k : Nibble) (pressed : Bool) (s : State) : SameBut { key := some k } s (keyWrite k pressed s) :=
  { sameBut_refl _ s with
    keypad := fun j hj => (s.key_setKey k j pressed).trans (if_neg fun hjk => hj (congrArg some hjk)) }

end Sys2Proof.Machine

/-! ## The statements of 60_exceptions.md settled -/

namespace Sys2Proof.Proofs

open Sys2Proof.Machine Sys2Proof.Safety

/-- Settles O9: the last answer is never read, so the state that the failing step reached makes the same step again. -/
theorem failedFetchRecurs : Obligations.FailedFetchRecurs := by
  intro s hpc hs hskip
  have hstep := step_of_fetch_outside hpc hs hskip
  refine ⟨_, hstep, rfl, (Edits.refl.setAnswer _ rfl).sameBut, runFor_of_step_self ?_⟩
  exact (lastAnswerIsNeverRead s _ (nextEvent_of_stepsOnly s hs)).trans hstep

/-- Settles O13: an error in the answer is one the instruction raised, since it began from `Ok`. -/
theorem errorsAreThoseListed : Obligations.ErrorsAreThoseListed :=
  fun _ _ _ _ hok h he => (exec_error_cases hok h he).1

/-- Settles O48, by induction on the number of ticks, once for both timers and once for the frame. -/
theorem ticksReachZero : Obligations.TicksReachZero := fun n s =>
  ⟨ticks_of_tick (f := fun u => u.cpu.dt.toNat) toNat_tick_dt n s,
    ticks_of_tick (f := fun u => u.cpu.st.toNat) toNat_tick_st n s, (edits_ticks n s).sameBut⟩

/-- Settles O10, from the reaction under each policy. -/
theorem errorIsFollowedByPolicy : Obligations.ErrorIsFollowedByPolicy := fun _ =>
  ⟨fun hok => driverReacts_of_ok (Classical.not_not.mp hok),
    fun _ he => ⟨driverReacts_of_skip, driverReacts_of_reset he, driverReacts_of_halt he⟩⟩

/-- Settles O47: a Tick is two writes, one to each timer. -/
theorem tickCountsDownToZero : Obligations.TickCountsDownToZero := fun s =>
  ⟨toNat_tick_dt s, toNat_tick_st s, (Edits.refl.tick rfl rfl).sameBut⟩

/-- Settles O49: the flag written is the flag read back, and no other key has that number. -/
theorem keyWriteSetsOneFlag : Obligations.KeyWriteSetsOneFlag := fun k pressed s =>
  ⟨(s.key_setKey k k pressed).trans (if_pos rfl), keyWrite_sameBut k pressed s⟩

end Sys2Proof.Proofs
end

section
/-! Reset and the parked state of 70_reset_and_hazards.md: a parked state holds a `JP` to its own address, whose step puts `pc`
back where the fetch found it (R120 (b)). -/

namespace Sys2Proof.Machine

open Sys2Proof.Safety

variable {nnn : Imm12} {s : State}

/-! ## The parked state (R120) -/

theorem exec_jp_of_lt (s : State) (h : nnn.toNat < s.params.memLen) : exec (.jp nnn) s = .next (s.setPc (zext16 nnn)) :=
  withinMemory_of_lt s _ _ h

/-- The word at a parked `pc` is the encoding of a `JP` to that `pc`, which fits the 12 bits of `nnn`. -/
theorem exists_jp_of_parked (h : Parked s) :
    ∃ nnn, decodeWord (s.wordAt s.cpu.pc.toNat) = .jp nnn ∧ zext16 nnn = s.cpu.pc := by
  obtain ⟨-, hle, hword⟩ := h
  have htarget : (s.cpu.pc.setWidth 12).toNat = s.cpu.pc.toNat := by
    rw [BitVec.toNat_setWidth, Nat.mod_eq_of_lt (Nat.lt_succ_of_le hle)]
  have hjp : s.wordAt s.cpu.pc.toNat = encode (.jp (s.cpu.pc.setWidth 12)) :=
    BitVec.eq_of_toNat_eq (by rw [hword, encode, toNat_formatA, htarget]; rfl)
  exact ⟨_, by rw [hjp, decodeWord_encode _ rfl], BitVec.eq_of_toNat_eq (by rw [toNat_zext16, htarget])⟩

/-- Jumping to where the fetch began undoes its advance. -/
theorem setPc_of_fetched (s : State) (a : Answer) : (s.advancePc.setAnswer a).setPc s.cpu.pc = s.setAnswer a := rfl

/-- One step of a parked state records `Ok` and does nothing else. -/
theorem step_of_parked (h : Parked s) (hs : StepsOnly s) : step s = .next (s.setAnswer .ok) := by
  obtain ⟨nnn, hdec, hpc⟩ := exists_jp_of_parked h
  obtain ⟨hfetch, -, -⟩ := h
  have hin : nnn.toNat < s.params.memLen := by
    rw [← toNat_zext16, hpc]
    exact Nat.lt_of_succ_lt hfetch
  rw [step_of_stepsOnly s hs, cycle_of_lt s hfetch, hdec, exec_jp_of_lt (s.advancePc.setAnswer .ok) hin, hpc,
    setPc_of_fetched]
  exact driverReacts_of_ok (State.setAnswer_driver_answer s .ok)

end Sys2Proof.Machine

/-! ## The statements of 70_reset_and_hazards.md settled -/

namespace Sys2Proof.Proofs

open Sys2Proof.Machine Sys2Proof.Safety

/-- Settles O59: the first step records `Ok`; the last answer is never read, so every later step leaves the state as it is. -/
theorem parkedStateStays : Obligations.ParkedStateStays := by
  intro s h hs k
  have hstep := step_of_parked h hs
  rw [runFor_succ_of_next _ _ k hstep]
  exact runFor_of_step_self ((lastAnswerIsNeverRead s .ok (nextEvent_of_stepsOnly s hs)).trans hstep) k

/-- Settles O51: the CpuState after Reset is the one at power-on, whose fields O52 lists; nothing else is written. -/
theorem resetZeroesCpuState : Obligations.ResetZeroesCpuState := by
  obtain ⟨-, hvectors, hi, hpc, hsp, hdt, hst⟩ := resetEqualsPowerOn
  exact fun s => ⟨hvectors, hi, hpc, hsp, hdt, hst, fun _ => rfl, rfl, rfl⟩

end Sys2Proof.Proofs
end
